-- ==== Sys2Proof/Word.lean ====
section
/-! DEFINITION. Words, times and the small named vocabularies of the PSB: protocols, slot kinds, slot keys, payloads,
service-mode packet data, packets, DRIVER answers and the steps the environment can offer. -/

namespace Sys2Proof

/-- A command word or an event word: 64 bits, passed whole (20_memory.md R79, 30_encoding.md R100, R106). -/
abbrev Word := BitVec 64

/-- The three protocols, in the order of 00_scope.md R7. Code 3 is reserved and is no protocol. -/
inductive Proto where
  | dcc
  | mm
  | mfx
  deriving DecidableEq, Repr, Inhabited

/-- The two slot kinds of 00_scope.md R7: GL (locomotive) and GA (accessory decoder). -/
inductive Kind where
  | gl
  | ga
  deriving DecidableEq, Repr, Inhabited

/-- A slot key (p, k, a): protocol, kind and 14-bit address (10_state.md R21, R44). -/
structure SlotKey where
  proto : Proto
  kind : Kind
  addr : BitVec 14
  deriving DecidableEq, Repr, Inhabited

/-- A slot's payload: the desired decoder state (10_state.md R22 for GL, R23 for GA). -/
inductive Payload where
  | gl (speed : BitVec 8) (dir : BitVec 1) (funcs : BitVec 32)
  | ga (port : BitVec 1) (action : BitVec 1)
  deriving DecidableEq, Repr, Inhabited

/-- `SM_PHASE`: which packet the next service-mode transmission carries (10_state.md R40, 42_encoder_mux.md R199). -/
inductive SmPhase where
  | write
  | bitv
  | verify
  deriving DecidableEq, Repr, Inhabited

/-- The data of a service-mode packet: a byte (WRITE, VERIFY) or a bit position and value (BITV), 42_encoder_mux.md R199. -/
inductive SmData where
  | byte (value : BitVec 8)
  | bit (position : BitVec 3) (value : BitVec 1)
  deriving DecidableEq, Repr, Inhabited

/-- What `DEC[p]` gives back: the arguments of `ENC[p]` or of `ENC_SM[p]` (42_encoder_mux.md R197). -/
inductive Decoded where
  | registry (kind : Kind) (wire : Int) (payload : Payload)
  | service (phase : SmPhase) (cv : BitVec 16) (data : SmData)
  deriving DecidableEq, Repr, Inhabited

/-- The status a DRIVER completion carries (60_exceptions.md R331, Table R334). -/
inductive TxStatus where
  | ok
  | timingMiss
  | fault
  deriving DecidableEq, Repr, Inhabited

/-- A sensor vector as wide as the longest chain Table R9 admits (`S88_BITS` ≤ 65536). A chain of `S88_BITS` sensors uses
the low `S88_BITS` bits and the others are zero (10_state.md R42; notes/assumptions/9.md). -/
abbrev S88Vector := BitVec 65536

/-- The `(nbits, bits)` of a packet (30_encoding.md R110): at least one bit and at most `PKT_MAX_BITS`, here `maxBits`;
`nbits` is the length of `bits`, and `bits[0]` is sent first. -/
structure PacketBits (maxBits : Nat) where
  bits : List Bool
  nonempty : 1 ≤ bits.length
  bounded : bits.length ≤ maxBits
  deriving DecidableEq, Repr

/-- What the DRIVER draws at a completion (60_exceptions.md Table R334). A kind of transaction reads only the entries
its row lists: `ack` for an acknowledgement sample, `vector` for an S88 shift. -/
structure Draw where
  status : TxStatus
  ack : Bool
  vector : S88Vector
  deriving DecidableEq, Repr, Inhabited

/-- One step the environment offers: whose turn it is and, for the HOST, the DRIVER and the CLOCK, the data the step
brings (00_scope.md R5, 60_exceptions.md R344; the reset input of 70_reset_and_hazards.md R350 is the last one). -/
inductive AgentStep where
  | host (word : Word)
  | pop
  | psb
  | driver (draw : Draw)
  | clock (dt : Nat)
  | reset
  deriving DecidableEq, Repr, Inhabited

end Sys2Proof
end

