-- ==== Sys2Proof/Config.lean ====
section
/-! DEFINITION. The parameters of 00_scope.md Table R9 as one configuration record (70_reset_and_hazards.md R354), and the
uninterpreted constants that stand for the OPEN ones. The record the machine runs with is `Machine.params`. -/

namespace Sys2Proof

/-- The configuration record: every parameter of 00_scope.md Table R9, constant from reset to reset. Times are
natural numbers of microseconds (R11). -/
structure Params where
  /-- `GAP_US[DCC]` -/
  gapDcc : Nat
  /-- `GAP_US[MM]` -/
  gapMm : Nat
  /-- `GAP_US[MFX]` -/
  gapMfx : Nat
  /-- `PAUSE_US[p](kind, payload)` -/
  pauseUs : Proto → Kind → Payload → Nat
  /-- `ADDR_MIN[p][k]`, the same for every non-empty range -/
  addrMin : Nat
  /-- `ADDR_MAX[DCC][GL]` -/
  addrMaxDccGl : Nat
  /-- `ADDR_MAX[MM][GL]` -/
  addrMaxMmGl : Nat
  /-- `ADDR_MAX[MFX][GL]` -/
  addrMaxMfxGl : Nat
  /-- `ADDR_MAX[MM][GA]` -/
  addrMaxMmGa : Nat
  /-- `GA_MAX_DCC`, which is `ADDR_MAX[DCC][GA]` -/
  gaMaxDcc : Nat
  /-- `SPEED_MAX[p]` -/
  speedMax : Proto → Nat
  /-- `FUNC_MAX[p]` -/
  funcMax : Proto → Nat
  /-- `MM_SHIFT` -/
  mmShift : Nat
  /-- `S88_BITS` -/
  s88Bits : Nat
  /-- `S88_NPKT` -/
  s88Npkt : Nat
  /-- `SM_SUPPORT[p]` -/
  smSupport : Proto → Bool
  /-- `SM_WRITE_REPEAT[p]` -/
  smWriteRepeat : Proto → Nat
  /-- `SM_RETRY_MAX[p]` -/
  smRetryMax : Proto → Nat
  /-- `SM_ACK_DELAY_US[p]` -/
  smAckDelayUs : Proto → Nat
  /-- `SM_ACK_WINDOW_US[p]` -/
  smAckWindowUs : Proto → Nat
  /-- `CV_MAX[p]` -/
  cvMax : Proto → Nat
  /-- `PKT_MAX_BITS` -/
  pktMaxBits : Nat
  /-- `EVQ_DEPTH`; none is the table's ∞ -/
  evqDepth : Option Nat
  /-- `ENC[p](kind, wire, payload)` (42_encoder_mux.md R191), within the bounds of R198 -/
  enc : Proto → Kind → Int → Payload → PacketBits pktMaxBits
  /-- `ENC_SM[p](phase, cv, data)` (42_encoder_mux.md R191, R199), within the bounds of R198 -/
  encSm : Proto → SmPhase → BitVec 16 → SmData → PacketBits pktMaxBits
  /-- `DEC[p]` (42_encoder_mux.md R197); no step of the PSB calls it -/
  dec : Proto → List Bool → Option Decoded

/-- The numeric constraints of the "value or constraint" column of 00_scope.md Table R9. -/
structure Params.InRange (P : Params) : Prop where
  gaMaxDcc : 1 ≤ P.gaMaxDcc ∧ P.gaMaxDcc ≤ 16383
  speedMaxDcc : 128 ≤ P.speedMax .dcc
  speedMax : ∀ p, P.speedMax p ≤ 255
  funcMax : ∀ p, P.funcMax p ≤ 31
  s88Bits : P.s88Bits ≤ 65536
  s88Npkt : P.s88Npkt ≤ 65535
  smWriteRepeat : ∀ p, 1 ≤ P.smWriteRepeat p ∧ P.smWriteRepeat p ≤ 255
  smRetryMax : ∀ p, P.smRetryMax p ≤ 255
  cvMax : ∀ p, 1 ≤ P.cvMax p ∧ P.cvMax p ≤ 65535
  pktMaxBits : 1 ≤ P.pktMaxBits
  evqDepth : ∀ d, P.evqDepth = some d → 1 ≤ d

/-- 42_encoder_mux.md R195: the MM encoder is injective in the signed wire address over −3..16379, for equal kind and
payload. -/
def Params.MmInjective (P : Params) : Prop :=
  ∀ (k : Kind) (x y : Int) (pl : Payload), -3 ≤ x → x ≤ 16379 → -3 ≤ y → y ≤ 16379 →
    (P.enc .mm k x pl).bits = (P.enc .mm k y pl).bits → x = y

/-- The OPEN parameters as uninterpreted constants: nothing is known of a value but the range its type gives it
(00_scope.md Table R9; notes/assumptions/3.md). -/
opaque Config.gapMfx : Nat
/-- `PAUSE_US[p](kind, payload)`: any total function (42_encoder_mux.md R206). -/
opaque Config.pauseUs : Proto → Kind → Payload → Nat
/-- `GA_MAX_DCC` − 1, so that `GA_MAX_DCC` is in 1..16383. -/
opaque Config.gaMaxDccLessOne : Fin 16383
/-- `SPEED_MAX[DCC]` − 128, so that `SPEED_MAX[DCC]` is in 128..255. -/
opaque Config.speedMaxDccLess128 : Fin 128
/-- `SPEED_MAX[MM]`, in 0..255. -/
opaque Config.speedMaxMm : Fin 256
/-- `SPEED_MAX[MFX]`, in 0..255. -/
opaque Config.speedMaxMfx : Fin 256
/-- `FUNC_MAX[p]`, in 0..31. -/
opaque Config.funcMax : Proto → Fin 32
/-- `S88_BITS`, in 0..65536. -/
opaque Config.s88Bits : Fin 65537
/-- `S88_NPKT`, in 0..65535. -/
opaque Config.s88Npkt : Fin 65536
/-- `SM_SUPPORT[p]`: any. -/
opaque Config.smSupport : Proto → Bool
/-- `SM_WRITE_REPEAT[p]` − 1, so that `SM_WRITE_REPEAT[p]` is in 1..255. -/
opaque Config.smWriteRepeatLessOne : Proto → Fin 255
/-- `SM_RETRY_MAX[p]`, in 0..255. -/
opaque Config.smRetryMax : Proto → Fin 256
/-- `SM_ACK_DELAY_US[p]`: any. -/
opaque Config.smAckDelayUs : Proto → Nat
/-- `SM_ACK_WINDOW_US[p]`: any. -/
opaque Config.smAckWindowUs : Proto → Nat
/-- `CV_MAX[p]` − 1, so that `CV_MAX[p]` is in 1..65535. -/
opaque Config.cvMaxLessOne : Proto → Fin 65535
/-- `PKT_MAX_BITS` − 1, so that `PKT_MAX_BITS` is at least 1. -/
opaque Config.pktMaxBitsLessOne : Nat
/-- `EVQ_DEPTH` − 1, so that `EVQ_DEPTH` is at least 1; none stands for ∞. -/
opaque Config.evqDepthLessOne : Option Nat
/-- `nbits` − 1 of `ENC[p](kind, wire, payload)`, so that `nbits` is in 1..`PKT_MAX_BITS` (30_encoding.md R110; of the
encoders' contract only this bound is assumed, notes/assumptions/4.md). -/
opaque Config.encNbitsLessOne : Proto → Kind → Int → Payload → Fin (Config.pktMaxBitsLessOne + 1)
/-- `bits[i]` of `ENC[p](kind, wire, payload)` (42_encoder_mux.md R191). -/
opaque Config.encBit : Proto → Kind → Int → Payload → Nat → Bool
/-- `nbits` − 1 of `ENC_SM[p](phase, cv, data)`, in the same range. -/
opaque Config.encSmNbitsLessOne : Proto → SmPhase → BitVec 16 → SmData → Fin (Config.pktMaxBitsLessOne + 1)
/-- `bits[i]` of `ENC_SM[p](phase, cv, data)` (42_encoder_mux.md R191, R199). -/
opaque Config.encSmBit : Proto → SmPhase → BitVec 16 → SmData → Nat → Bool
/-- `DEC[p]`: the encoders' inverse (42_encoder_mux.md R197). -/
opaque Config.dec : Proto → List Bool → Option Decoded
/-- The step the environment offers at its n-th free choice: any interleaving and any data
(00_scope.md R5, 60_exceptions.md R318, R334; notes/assumptions/1.md). -/
opaque Config.environment : Nat → AgentStep

end Sys2Proof
end

