-- ==== Sys2Proof/Syntax.lean ====
section
/-! DEFINITION. The host commands: one constructor per row of spec/opcode_table.json, carrying every field of its format
(30_encoding.md R101), the zero fields among them: a word whose zero field holds a one still is that command, and is
rejected when the command is applied (check 3 of 40_registry_commands.md R132). -/

namespace Sys2Proof

/-- The eleven host commands (30_encoding.md R103), fields from the high end of the word to the low end. A `PROTO` field is
`none` for the reserved code 3 (00_scope.md R7). -/
inductive Instr where
  /-- NOP, format N: zero 59:0. -/
  | nop (zero : BitVec 60)
  /-- SETGL, format GL: PROTO 59:58, ADDR 57:44, SPEED 43:36, DIR 35, zero 34:32, FUNCS 31:0. -/
  | setgl (proto : Option Proto) (addr : BitVec 14) (speed : BitVec 8) (dir : BitVec 1) (zero : BitVec 3)
      (funcs : BitVec 32)
  /-- SETGA, format GA: PROTO 59:58, ADDR 57:44, zero 43:2, PORT 1, ACTION 0. -/
  | setga (proto : Option Proto) (addr : BitVec 14) (zero : BitVec 42) (port : BitVec 1) (action : BitVec 1)
  /-- TERMGL, format T: PROTO 59:58, ADDR 57:44, zero 43:0. -/
  | termgl (proto : Option Proto) (addr : BitVec 14) (zero : BitVec 44)
  /-- TERMGA, format T: PROTO 59:58, ADDR 57:44, zero 43:0. -/
  | termga (proto : Option Proto) (addr : BitVec 14) (zero : BitVec 44)
  /-- SMENTER, format ME: PROTO 59:58, zero 57:0. -/
  | smenter (proto : Option Proto) (zero : BitVec 58)
  /-- SMEXIT, format MX: zero 59:0. -/
  | smexit (zero : BitVec 60)
  /-- SMWRITE, format CV: zero 59:24, CV 23:8, VALUE 7:0. -/
  | smwrite (zero : BitVec 36) (cv : BitVec 16) (value : BitVec 8)
  /-- SMREAD, format CV: zero 59:24, CV 23:8, zero 7:0. -/
  | smread (zero : BitVec 36) (cv : BitVec 16) (zero2 : BitVec 8)
  /-- CFGWR, format RG: zero 59:44, REG 43:40, zero 39:32, VALUE 31:0. -/
  | cfgwr (zero : BitVec 16) (reg : BitVec 4) (zero2 : BitVec 8) (value : BitVec 32)
  /-- RDREG, format RG: zero 59:44, REG 43:40, zero 39:32, zero 31:0. -/
  | rdreg (zero : BitVec 16) (reg : BitVec 4) (zero2 : BitVec 8) (zero3 : BitVec 32)
  deriving DecidableEq, Repr

end Sys2Proof
end

