-- ==== Sys2Proof/WellFormed.lean ====
section
/-! DEFINITION. Which commands are well formed: those that use no reserved encoding of 30_encoding.md R104 (the checks
that depend on a parameter or on the state are the commands' own). -/

namespace Sys2Proof

/-- Every zero field of the command's format is zero (30_encoding.md R100, R104 (iii)). -/
def Instr.zeroFieldsZero : Instr → Bool
  | .nop z => z == 0
  | .setgl _ _ _ _ z _ => z == 0
  | .setga _ _ z _ _ => z == 0
  | .termgl _ _ z => z == 0
  | .termga _ _ z => z == 0
  | .smenter _ z => z == 0
  | .smexit z => z == 0
  | .smwrite z _ _ => z == 0
  | .smread z _ z2 => z == 0 && z2 == 0
  | .cfgwr z _ z2 _ => z == 0 && z2 == 0
  | .rdreg z _ z2 z3 => z == 0 && z2 == 0 && z3 == 0

/-- PROTO, where the command uses it, is not the reserved code (30_encoding.md R104 (ii)), and is not MFX for an accessory
command (00_scope.md R7: mfx has no GA kind). -/
def Instr.protoLegal : Instr → Bool
  | .nop _ => true
  | .setgl p _ _ _ _ _ => p.isSome
  | .setga p _ _ _ _ => p.isSome && p != some .mfx
  | .termgl p _ _ => p.isSome
  | .termga p _ _ => p.isSome && p != some .mfx
  | .smenter p _ => p.isSome
  | .smexit _ => true
  | .smwrite _ _ _ => true
  | .smread _ _ _ => true
  | .cfgwr _ _ _ _ => true
  | .rdreg _ _ _ _ => true

/-- REG, where the command uses it, names a register that the command may name: 0 or 1 for CFGWR, 0 to 5 for RDREG
(30_encoding.md R104 (iv), 10_state.md R39). -/
def Instr.regLegal : Instr → Bool
  | .nop _ => true
  | .setgl _ _ _ _ _ _ => true
  | .setga _ _ _ _ _ => true
  | .termgl _ _ _ => true
  | .termga _ _ _ => true
  | .smenter _ _ => true
  | .smexit _ => true
  | .smwrite _ _ _ => true
  | .smread _ _ _ => true
  | .cfgwr _ r _ _ => decide (r.toNat ≤ 1)
  | .rdreg _ r _ _ => decide (r.toNat ≤ 5)

/-- The command uses no reserved encoding. -/
def Instr.wf (i : Instr) : Bool := i.zeroFieldsZero && i.protoLegal && i.regLegal

end Sys2Proof
end

