-- ==== Sys2Proof/Decode.lean ====
section
/-! DEFINITION. Decoding a command word, then encoding a command: both written from the format tables of
30_encoding.md R101 and the opcode map of R103. -/

namespace Sys2Proof

/-- `w[lo+len-1 : lo]`, the field of `len` bits from bit `lo` up (00_scope.md R10). -/
def field (w : Word) (lo len : Nat) : BitVec len := w.extractLsb' lo len

/-- The protocol a 2-bit code names; code 3 is reserved (00_scope.md R7). -/
def protoOfCode (c : BitVec 2) : Option Proto :=
  if c = 0 then some .dcc else if c = 1 then some .mm else if c = 2 then some .mfx else none

/-- The 2-bit code of a protocol (00_scope.md R7). -/
def protoCode : Proto → BitVec 2
  | .dcc => 0
  | .mm => 1
  | .mfx => 2

/-- The 2-bit code of a PROTO field; the reserved code is 3. -/
def protoFieldCode : Option Proto → BitVec 2
  | some p => protoCode p
  | none => 3

/-- The code of a slot kind: GL = 0, GA = 1 (00_scope.md R7). -/
def kindCode : Kind → Nat
  | .gl => 0
  | .ga => 1

/-- Why the decoder refuses: the opcode is one of the illegal ones, 11 to 15 (30_encoding.md R104 (i)), or a serialised word
has not its eight bytes. -/
inductive DecodeError where
  | badOpcode
  | truncated
  deriving DecidableEq, Repr

/-- The command a word is: bits 63:60 alone select it (30_encoding.md R103), and each of its fields is read where R101
puts it. Opcodes 11 to 15 are no command. -/
def decode (w : Word) : Except DecodeError Instr :=
  let proto := protoOfCode (field w 58 2)
  let addr := field w 44 14
  match (field w 60 4).toNat with
  | 0 => .ok (.nop (field w 0 60))
  | 1 => .ok (.setgl proto addr (field w 36 8) (field w 35 1) (field w 32 3) (field w 0 32))
  | 2 => .ok (.setga proto addr (field w 2 42) (field w 1 1) (field w 0 1))
  | 3 => .ok (.termgl proto addr (field w 0 44))
  | 4 => .ok (.termga proto addr (field w 0 44))
  | 5 => .ok (.smenter proto (field w 0 58))
  | 6 => .ok (.smexit (field w 0 60))
  | 7 => .ok (.smwrite (field w 24 36) (field w 8 16) (field w 0 8))
  | 8 => .ok (.smread (field w 24 36) (field w 8 16) (field w 0 8))
  | 9 => .ok (.cfgwr (field w 44 16) (field w 40 4) (field w 32 8) (field w 0 32))
  | 10 => .ok (.rdreg (field w 44 16) (field w 40 4) (field w 32 8) (field w 0 32))
  | _ => .error .badOpcode

/-- The word of a command: its fields side by side, the opcode first (30_encoding.md R101, R103). -/
def encode : Instr → Word
  | .nop z => 0#4 ++ z
  | .setgl p a sp d z f => 1#4 ++ protoFieldCode p ++ a ++ sp ++ d ++ z ++ f
  | .setga p a z po ac => 2#4 ++ protoFieldCode p ++ a ++ z ++ po ++ ac
  | .termgl p a z => 3#4 ++ protoFieldCode p ++ a ++ z
  | .termga p a z => 4#4 ++ protoFieldCode p ++ a ++ z
  | .smenter p z => 5#4 ++ protoFieldCode p ++ z
  | .smexit z => 6#4 ++ z
  | .smwrite z cv v => 7#4 ++ z ++ cv ++ v
  | .smread z cv z2 => 8#4 ++ z ++ cv ++ z2
  | .cfgwr z r z2 v => 9#4 ++ z ++ r ++ z2 ++ v
  | .rdreg z r z2 z3 => 10#4 ++ z ++ r ++ z2 ++ z3

/-- The opcode of a command (30_encoding.md Table R103). -/
def opcodeOf : Instr → BitVec 4
  | .nop _ => 0
  | .setgl _ _ _ _ _ _ => 1
  | .setga _ _ _ _ _ => 2
  | .termgl _ _ _ => 3
  | .termga _ _ _ => 4
  | .smenter _ _ => 5
  | .smexit _ => 6
  | .smwrite _ _ _ => 7
  | .smread _ _ _ => 8
  | .cfgwr _ _ _ _ => 9
  | .rdreg _ _ _ _ => 10

/-- The mask of the zero fields of a command's format, as spec/opcode_table.json gives it ("zero_mask"). -/
def zeroMask : Instr → Word
  | .nop _ => 0x0FFFFFFFFFFFFFFF
  | .setgl _ _ _ _ _ _ => 0x0000000700000000
  | .setga _ _ _ _ _ => 0x00000FFFFFFFFFFC
  | .termgl _ _ _ => 0x00000FFFFFFFFFFF
  | .termga _ _ _ => 0x00000FFFFFFFFFFF
  | .smenter _ _ => 0x03FFFFFFFFFFFFFF
  | .smexit _ => 0x0FFFFFFFFFFFFFFF
  | .smwrite _ _ _ => 0x0FFFFFFFFF000000
  | .smread _ _ _ => 0x0FFFFFFFFF0000FF
  | .cfgwr _ _ _ _ => 0x0FFFF0FF00000000
  | .rdreg _ _ _ _ => 0x0FFFF0FFFFFFFFFF

/-- A word as bytes where an implementation serialises it: the byte holding bits 63:56 goes first (20_memory.md R79). -/
def bytesOfWord (w : Word) : List (BitVec 8) :=
  [field w 56 8, field w 48 8, field w 40 8, field w 32 8, field w 24 8, field w 16 8, field w 8 8, field w 0 8]

/-- Reading one serialised command from the front of a byte sequence, with the bytes that follow it (20_memory.md R79,
30_encoding.md R105: every command is eight bytes). -/
def decodeBytes : List (BitVec 8) → Except DecodeError (Instr × List (BitVec 8))
  | b7 :: b6 :: b5 :: b4 :: b3 :: b2 :: b1 :: b0 :: rest =>
    match decode (b7 ++ b6 ++ b5 ++ b4 ++ b3 ++ b2 ++ b1 ++ b0) with
    | .ok i => .ok (i, rest)
    | .error e => .error e
  | _ => .error .truncated

/-- The command the decoder reads from a word numbered as spec/opcode_table.json numbers it: one 64-bit word, bit 0 the
least significant, every bit from `nbits` up zero. The word is laid out as its eight bytes and read back. -/
def decodeTableWord (nbits w : Nat) : Option Instr :=
  match decodeBytes (bytesOfWord (BitVec.ofNat 64 (w % 2 ^ nbits))) with
  | .ok (i, _) => some i
  | .error _ => none

end Sys2Proof
end

