-- ==== Sys2Proof/Machine/State.lean ====
section
/-! DEFINITION. The state of the PSB (10_state.md R20), the transaction in flight, the reasons a step can stop, and the
state after reset (10_state.md R47). -/

namespace Sys2Proof.Machine

/-- A command slot (10_state.md Table R21). -/
structure Slot where
  valid : Bool
  dirty : Bool
  eligibleAt : Nat
  payload : Payload
  deriving DecidableEq, Repr

/-- The all-zero payload of a kind. -/
def Payload.zero : Kind → Payload
  | .gl => .gl 0 0 0
  | .ga => .ga 0 0

/-- A slot after reset: every field 0 (10_state.md Table R47). -/
def Slot.reset (k : Kind) : Slot := ⟨false, false, 0, Payload.zero k⟩

/-- The slot arena (10_state.md R21), sparse: a slot that is not listed is as after reset. -/
abbrev Arena := List (SlotKey × Slot)

/-- `PAUSE_UNTIL[p]` for the three protocols (10_state.md R30). -/
structure PauseRegs where
  dcc : Nat
  mm : Nat
  mfx : Nat
  deriving DecidableEq, Repr

/-- `MODE` (10_state.md R27). -/
inductive Mode where
  | normal
  | service
  | halted
  deriving DecidableEq, Repr

/-- `SM_STATE` (10_state.md R41). -/
inductive SmState where
  | idle
  | selectop
  | transmit
  | sample
  | retry
  | done
  | failed
  deriving DecidableEq, Repr

/-- `SM_OP` (10_state.md Table R40). -/
inductive SmOp where
  | none
  | write
  | read
  deriving DecidableEq, Repr

/-- The service-mode session registers (10_state.md Table R40). -/
structure SmRegs where
  proto : Proto
  state : SmState
  op : SmOp
  cv : BitVec 16
  val : BitVec 8
  phase : SmPhase
  rep : BitVec 8
  bit : BitVec 3
  acc : BitVec 8
  retry : BitVec 8
  deadline : Nat
  deriving DecidableEq, Repr

/-- The service-mode registers with no session, for a given `SM_PROTO` (43_service_mode.md R245). -/
def SmRegs.idle (p : Proto) : SmRegs := ⟨p, .idle, .none, 0, 0, .write, 0, 0, 0, 0, 0⟩

/-- What a transaction or a trigger is about: a GL packet, a GA packet, service mode, or the S88 chain
(30_encoding.md R106 CLASS, R111 `class`, 60_exceptions.md R338). -/
inductive TxClass where
  | gl
  | ga
  | sm
  | s88
  deriving DecidableEq, Repr

/-- The `timing_hint` of the Output Driver's `transmit` (30_encoding.md R111). -/
structure TimingHint where
  proto : Proto
  cls : TxClass
  spiSel : BitVec 8
  deriving DecidableEq, Repr

/-- A PacketBuffer (30_encoding.md R110): the bits, 1 to `PKT_MAX_BITS` of them, the gap and the pause. -/
structure PacketBuffer (maxBits : Nat) extends PacketBits maxBits where
  gapUs : Nat
  pauseUs : Nat
  deriving DecidableEq, Repr

/-- `INFL`, the transaction in flight, one constructor per `INFL.kind` with the fields that kind has (10_state.md R29). -/
inductive InFlight where
  | cmd (key : SlotKey) (wasDirty : Bool) (gap pause : Nat) (tStart : Nat)
  | smpkt (tStart : Nat)
  | ack (tStart : Nat)
  | s88 (tStart : Nat)
  deriving DecidableEq, Repr

/-- `INFL.t_start` (10_state.md R29). -/
def InFlight.tStart : InFlight → Nat
  | .cmd _ _ _ _ t => t
  | .smpkt t => t
  | .ack t => t
  | .s88 t => t

/-- What the DRIVER was handed and owes a completion for: `start_tx`, `start_ack` or `start_s88`
(60_exceptions.md R330, R332, R333; notes/assumptions/7.md). -/
inductive DriverJob where
  | tx (bits : List Bool) (hint : TimingHint)
  | ack (windowUs : Nat)
  | s88
  deriving DecidableEq, Repr

/-- What a step shows outside the machine beside the event queue and the DRIVER's job: a trigger (60_exceptions.md R338),
the word a POP gives the host (R327), or that the offered step was not enabled (notes/assumptions/8.md). -/
inductive OutLabel where
  | trig (cls : TxClass)
  | popped (word : Word)
  | notEnabled
  deriving DecidableEq, Repr

/-- The complete state (10_state.md R20), then the model's own fields. Times are natural numbers of microseconds
(00_scope.md R11; notes/assumptions/5.md). -/
structure State where
  /-- `NOW` (10_state.md R31) -/
  now : Nat
  /-- `SLOT` (10_state.md R21) -/
  arena : Arena
  /-- `PAUSE_UNTIL[0..2]` (10_state.md R30) -/
  pauseUntil : PauseRegs
  /-- `MODE` (10_state.md R27) -/
  mode : Mode
  /-- `TARGET` (10_state.md R28) -/
  target : Bool
  /-- `TARGET_PROTO` (10_state.md R28) -/
  targetProto : Proto
  /-- `INFL`; `BUSY` is 1 exactly when it is present (10_state.md R29, 93 U8) -/
  infl : Option InFlight
  /-- `PKTCNT` (10_state.md R36) -/
  pktCnt : BitVec 16
  /-- `S88_LAST` (10_state.md R37) -/
  s88Last : Nat
  /-- `S88_CUR` (10_state.md R42) -/
  s88Cur : S88Vector
  /-- `S88_PREV` (10_state.md R42) -/
  s88Prev : S88Vector
  /-- the service-mode session registers (10_state.md R40) -/
  sm : SmRegs
  /-- `CTRL` (10_state.md R33) -/
  ctrl : BitVec 32
  /-- `S88_MAXINT` (10_state.md R34) -/
  s88Maxint : BitVec 32
  /-- `EVQ`, oldest word first (10_state.md R43) -/
  evq : List Word
  /-- `EVOVF` (10_state.md R43) -/
  evovf : Bool
  /-- the model's own: the DRIVER's job (60_exceptions.md R330) -/
  driver : Option DriverJob
  /-- the model's own: what the latest step showed outside -/
  out : List OutLabel
  /-- the model's own: the environment's steps to come, oldest first (notes/assumptions/1.md) -/
  agenda : List AgentStep
  /-- the model's own: how many steps were taken from the uninterpreted environment stream -/
  drawn : Nat
  deriving DecidableEq, Repr

/-- Why a step could stop: there is no such reason. An Output Driver fault is the mode HALTED, a next state
(60_exceptions.md R321, R322), and every other error is an event (Table R310). No step raises a fault. -/
inductive Fault where
  deriving DecidableEq, Repr

/-- Why an instruction could be refused. -/
inductive Refusal where
  /-- Raised by the dispatcher alone, for a command with no meaning yet; safe, since the machine stops there. No command
  of this model is refused. -/
  | notModelled (mnemonic : String)
  deriving DecidableEq, Repr

/-- The state after reset (10_state.md Table R47, 70_reset_and_hazards.md R350). -/
def State.reset : State where
  now := 0
  arena := []
  pauseUntil := ⟨0, 0, 0⟩
  mode := .normal
  target := false
  targetProto := .dcc
  infl := none
  pktCnt := 0
  s88Last := 0
  s88Cur := 0
  s88Prev := 0
  sm := SmRegs.idle .dcc
  ctrl := 0
  s88Maxint := 0
  evq := []
  evovf := false
  driver := none
  out := []
  agenda := []
  drawn := 0

end Sys2Proof.Machine
end

