-- ==== Sys2Proof/Machine/Flags.lean ====
section
/-! DEFINITION. Flags and counters: the one-bit views of the state (10_state.md R32), the fields of CTRL (R33), the STATUS
word (R35), the saturating packet counter (R36) and the setting of one bit of SM_ACC (43_service_mode.md R237). -/

namespace Sys2Proof.Machine

/-- `BUSY` (10_state.md R29). -/
def State.busy (s : State) : Bool := s.infl.isSome

/-- `CTRL.MMCORR`, bit 0 (10_state.md Table R33). -/
def State.mmCorr (s : State) : Bool := s.ctrl.getLsbD 0

/-- `CTRL.S88_EN`, bit 1. -/
def State.s88En (s : State) : Bool := s.ctrl.getLsbD 1

/-- `CTRL.TRIG_<class>`: S88 bit 2, GA bit 3, GL bit 4, SM bit 5. -/
def State.trigEnabled (s : State) : TxClass → Bool
  | .s88 => s.ctrl.getLsbD 2
  | .ga => s.ctrl.getLsbD 3
  | .gl => s.ctrl.getLsbD 4
  | .sm => s.ctrl.getLsbD 5

/-- `CTRL.SPI_SEL`, bits 15:8. -/
def State.spiSel (s : State) : BitVec 8 := s.ctrl.extractLsb' 8 8

/-- The reserved bits of CTRL, 7:6 and 31:16 (10_state.md Table R33, 44_config_status.md R271). -/
def ctrlReservedMask : BitVec 32 := 0xFFFF00C0

/-- The 2-bit code of MODE (10_state.md R27). -/
def Mode.code : Mode → BitVec 2
  | .normal => 0
  | .service => 1
  | .halted => 2

/-- The 3-bit code of SM_STATE (10_state.md R41). -/
def SmState.code : SmState → BitVec 3
  | .idle => 0
  | .selectop => 1
  | .transmit => 2
  | .sample => 3
  | .retry => 4
  | .done => 5
  | .failed => 6

/-- The 2-bit CLASS code (30_encoding.md Table R106, R111). -/
def TxClass.code : TxClass → BitVec 2
  | .gl => 0
  | .ga => 1
  | .sm => 2
  | .s88 => 3

/-- The class of a registry packet of kind k: 0 for GL, 1 for GA (41_scheduler.md R157). -/
def classOfKind : Kind → TxClass
  | .gl => .gl
  | .ga => .ga

/-- `STATUS` (10_state.md Table R35): zero 31:11, SM_PROTO 10:9, EVOVF 8, SM_STATE 7:5, SESSION 4, TARGET 3, BUSY 2,
MODE 1:0. -/
def State.statusWord (s : State) : BitVec 32 :=
  0#21 ++ protoCode s.sm.proto ++ BitVec.ofBool s.evovf ++ s.sm.state.code ++ BitVec.ofBool (decide (s.sm.op ≠ .none))
    ++ BitVec.ofBool s.target ++ BitVec.ofBool s.busy ++ s.mode.code

/-- An increment of PKTCNT: it saturates at 65535 (10_state.md R36). -/
def satInc (c : BitVec 16) : BitVec 16 := if c = 65535 then c else c + 1

/-- `byte` with bit `i` replaced by `b` (43_service_mode.md R237: `SM_ACC[SM_BIT] <- ack`). -/
def setBit (byte : BitVec 8) (i : BitVec 3) (b : Bool) : BitVec 8 :=
  let mask := (1 : BitVec 8) <<< i.toNat
  if b then byte ||| mask else byte &&& ~~~mask

end Sys2Proof.Machine
end

