-- ==== Sys2Proof/Machine/Setup.lean ====
section
/-! DEFINITION. The configuration record the machine runs with: the source's literals, the spec's decided ranges, and the
uninterpreted constants of Config for every OPEN parameter (00_scope.md R8, R9; notes/assumptions/3.md). -/

namespace Sys2Proof.Machine

/-- The packet with the given `nbits` − 1 and `bits[i]`, in 1..`PKT_MAX_BITS` bits (30_encoding.md R110). -/
def packetBits {most : Nat} (nbitsLessOne : Fin (most + 1)) (bit : Nat → Bool) : PacketBits (most + 1) where
  bits := (List.range (nbitsLessOne.val + 1)).map bit
  nonempty := by simp
  bounded := by simpa using nbitsLessOne.isLt

/-- The parameters of the machine (00_scope.md Table R9; 42_encoder_mux.md Table R205 for the two gaps). -/
def params : Params where
  gapDcc := 5000
  gapMm := 50000
  gapMfx := Config.gapMfx
  pauseUs := Config.pauseUs
  addrMin := 1
  addrMaxDccGl := 16383
  addrMaxMmGl := 255
  addrMaxMfxGl := 16383
  addrMaxMmGa := 324
  gaMaxDcc := Config.gaMaxDccLessOne.val + 1
  speedMax := fun p =>
    match p with
    | .dcc => Config.speedMaxDccLess128.val + 128
    | .mm => Config.speedMaxMm.val
    | .mfx => Config.speedMaxMfx.val
  funcMax := fun p => (Config.funcMax p).val
  mmShift := 4
  s88Bits := Config.s88Bits.val
  s88Npkt := Config.s88Npkt.val
  smSupport := Config.smSupport
  smWriteRepeat := fun p => (Config.smWriteRepeatLessOne p).val + 1
  smRetryMax := fun p => (Config.smRetryMax p).val
  smAckDelayUs := Config.smAckDelayUs
  smAckWindowUs := Config.smAckWindowUs
  cvMax := fun p => (Config.cvMaxLessOne p).val + 1
  pktMaxBits := Config.pktMaxBitsLessOne + 1
  evqDepth := Config.evqDepthLessOne.map (· + 1)
  enc := fun p k wire pl => packetBits (Config.encNbitsLessOne p k wire pl) (Config.encBit p k wire pl)
  encSm := fun p ph cv d => packetBits (Config.encSmNbitsLessOne p ph cv d) (Config.encSmBit p ph cv d)
  dec := Config.dec

end Sys2Proof.Machine
end

