-- ==== Sys2Proof/Machine/Ops.lean ====
section
/-! DEFINITION. The named operations over the state: slot reads and writes (20_memory.md R78), the registers, the event
queue (60_exceptions.md R326), a rejection (R311), the halt (R321), the start of a transaction (R330 to R333) and the mode
switch (43_service_mode.md R226, R227). -/

namespace Sys2Proof.Machine

/-! ### The slot arena -/

/-- The place of a key in the order of the sort key's last three components: protocol, kind, address
(41_scheduler.md R154). -/
def slotIndex (k : SlotKey) : Nat :=
  ((protoCode k.proto).toNat * 2 + kindCode k.kind) * 16384 + k.addr.toNat

/-- What a slot that is not listed reads as: the slot after reset (10_state.md Table R47). -/
def unlistedSlot (k : SlotKey) : Slot := Slot.reset k.kind

/-- `SlotRead(key)` (20_memory.md R78). -/
def Arena.read : Arena → SlotKey → Slot
  | [], k => unlistedSlot k
  | (k', sl) :: rest, k => if k' = k then sl else Arena.read rest k

/-- The arena with the entry of a key taken out. -/
def Arena.erase : Arena → SlotKey → Arena
  | [], _ => []
  | (k', sl) :: rest, k => if k' = k then Arena.erase rest k else (k', sl) :: Arena.erase rest k

/-- The arena with an entry put at its place in key order, in front of the first key not below it. -/
def Arena.place : Arena → SlotKey → Slot → Arena
  | [], k, sl => [(k, sl)]
  | (k', sl') :: rest, k, sl =>
    if slotIndex k < slotIndex k' then (k, sl) :: (k', sl') :: rest else (k', sl') :: Arena.place rest k sl

/-- `SlotWrite(key, fields)` (20_memory.md R78): writing what an unlisted slot reads as takes the entry out. -/
def Arena.write (m : Arena) (k : SlotKey) (sl : Slot) : Arena :=
  if sl = unlistedSlot k then m.erase k else (m.erase k).place k sl

/-- The canonical form: keys strictly rising, no entry equal to what an unlisted slot reads as. -/
def Arena.wf : Arena → Bool
  | [] => true
  | (k, sl) :: rest =>
    decide (sl ≠ unlistedSlot k) && rest.all (fun e => decide (slotIndex k < slotIndex e.1)) && Arena.wf rest

/-- The state with one slot written. -/
def State.writeSlot (s : State) (k : SlotKey) (sl : Slot) : State := { s with arena := s.arena.write k sl }

/-- The slot of a key in a state. -/
def State.slot (s : State) (k : SlotKey) : Slot := s.arena.read k

/-! ### Registers -/

/-- `PAUSE_UNTIL[p]` (10_state.md R30). -/
def PauseRegs.get (r : PauseRegs) : Proto → Nat
  | .dcc => r.dcc
  | .mm => r.mm
  | .mfx => r.mfx

/-- `PAUSE_UNTIL[p] <- max(PAUSE_UNTIL[p], t)` (41_scheduler.md R163). -/
def PauseRegs.raise (r : PauseRegs) (p : Proto) (t : Nat) : PauseRegs :=
  match p with
  | .dcc => { r with dcc := max r.dcc t }
  | .mm => { r with mm := max r.mm t }
  | .mfx => { r with mfx := max r.mfx t }

def State.raisePause (s : State) (p : Proto) (t : Nat) : State := { s with pauseUntil := s.pauseUntil.raise p t }

def State.withSm (s : State) (r : SmRegs) : State := { s with sm := r }

def State.withMode (s : State) (m : Mode) : State := { s with mode := m }

/-- `TARGET` and `TARGET_PROTO` (10_state.md R28). -/
def State.withTarget (s : State) (b : Bool) (p : Proto) : State := { s with target := b, targetProto := p }

def State.withCtrl (s : State) (v : BitVec 32) : State := { s with ctrl := v }

def State.withMaxint (s : State) (v : BitVec 32) : State := { s with s88Maxint := v }

/-- `PKTCNT <- min(PKTCNT + 1, 65535); S88_LAST <- NOW` (41_scheduler.md R166, 43_service_mode.md R248). -/
def State.countPacket (s : State) : State := { s with pktCnt := satInc s.pktCnt, s88Last := s.now }

/-- `PKTCNT <- 0; S88_LAST <- NOW` (45_s88_mfx.md R294). -/
def State.countPoll (s : State) : State := { s with pktCnt := 0, s88Last := s.now }

/-- `S88_PREV` and `S88_CUR` (45_s88_mfx.md R294). -/
def State.withFrame (s : State) (prev cur : S88Vector) : State := { s with s88Prev := prev, s88Cur := cur }

def State.withNow (s : State) (t : Nat) : State := { s with now := t }

/-- A label shown outside (60_exceptions.md R338, R327; notes/assumptions/8.md). -/
def State.label (s : State) (l : OutLabel) : State := { s with out := s.out ++ [l] }

/-! ### The event queue -/

/-- The reasons of EV_INVALID (30_encoding.md Table R107). -/
inductive Reason where
  | badOpcode
  | halted
  | reservedNonzero
  | badProto
  | badAddr
  | badSpeed
  | badFunc
  | noSlot
  | badMode
  | smUnsupported
  | smBusy
  | badCv
  | badReg
  deriving DecidableEq, Repr

/-- The REASON codes (30_encoding.md Table R107). -/
def Reason.code : Reason → BitVec 4
  | .badOpcode => 1
  | .halted => 2
  | .reservedNonzero => 3
  | .badProto => 4
  | .badAddr => 5
  | .badSpeed => 6
  | .badFunc => 7
  | .noSlot => 8
  | .badMode => 9
  | .smUnsupported => 10
  | .smBusy => 11
  | .badCv => 12
  | .badReg => 13

/-- The STATUS of EV_SM_RESULT (30_encoding.md Table R106). -/
inductive SmStatus where
  | ok
  | failed
  | aborted
  deriving DecidableEq, Repr

/-- The STATUS code of EV_SM_RESULT (30_encoding.md Table R106). -/
def SmStatus.code : SmStatus → BitVec 2
  | .ok => 0
  | .failed => 1
  | .aborted => 2

/-- The OP bit of EV_SM_RESULT: 0 write, 1 read (30_encoding.md Table R106). -/
def SmOp.eventBit : SmOp → BitVec 1
  | .read => 1
  | .write => 0
  | .none => 0

/-- The events the PSB emits (30_encoding.md Table R106; EV_MFX is never emitted, 45_s88_mfx.md R303). -/
inductive Event where
  | invalid (reason : Reason) (cmdHi : BitVec 20)
  | timingMiss (proto : BitVec 2) (addr : BitVec 14) (cls : TxClass)
  | smResult (proto : Proto) (status : SmStatus) (op : SmOp) (cv : BitVec 16) (value : BitVec 8)
  | s88 (index : BitVec 16) (value : Bool)
  | driverFault (cls : TxClass)
  | reg (reg : BitVec 4) (value : BitVec 32)
  deriving DecidableEq, Repr

/-- The event word (30_encoding.md Table R106), fields from bit 63 down. -/
def Event.word : Event → Word
  | .invalid r hi => 1#4 ++ r.code ++ hi ++ 0#36
  | .timingMiss p a c => 2#4 ++ p ++ a ++ c.code ++ 0#42
  | .smResult p st op cv v => 3#4 ++ protoCode p ++ st.code ++ op.eventBit ++ 0#31 ++ cv ++ v
  | .s88 i v => 4#4 ++ 0#28 ++ i ++ 0#15 ++ BitVec.ofBool v
  | .driverFault c => 5#4 ++ 0#16 ++ c.code ++ 0#42
  | .reg r v => 6#4 ++ 0#16 ++ r ++ 0#8 ++ v

/-- Whether a queue of n words has room for one more: `length(EVQ) < EVQ_DEPTH` (60_exceptions.md R326). -/
def hasRoom (P : Params) (n : Nat) : Bool :=
  match P.evqDepth with
  | none => true
  | some d => decide (n < d)

/-- `emit(w)` (60_exceptions.md R326): the word goes to the tail, or is dropped and `EVOVF` set. -/
def emit (P : Params) (e : Event) (s : State) : State :=
  { s with
    evq := if hasRoom P s.evq.length then s.evq ++ [e.word] else s.evq
    evovf := if hasRoom P s.evq.length then s.evovf else true }

/-- Several events in order. -/
def emitAll (P : Params) : List Event → State → State
  | [], s => s
  | e :: es, s => emitAll P es (emit P e s)

/-! ### Rejection and halt: what the PSB has in place of taking an exception (60_exceptions.md R319) -/

/-- `reject(reason)` of the command word w (00_scope.md R12, 60_exceptions.md R311): the event, and nothing else. -/
def reject (P : Params) (r : Reason) (w : Word) (s : State) : State := emit P (.invalid r (field w 44 20)) s

/-- The two outcomes of a host command (00_scope.md R13): accepted with its state change, or rejected. -/
def settle (P : Params) (w : Word) (s : State) : Except Reason State → State
  | .ok s' => s'
  | .error r => reject P r w s

/-- `halt(class)` (60_exceptions.md R321). -/
def halt (P : Params) (c : TxClass) (s : State) : State := emit P (.driverFault c) (s.withMode .halted)

/-- Destroying the session (43_service_mode.md R245): every register of Table R40 but `SM_PROTO` to its reset value. -/
def State.destroySession (s : State) : State := s.withSm (SmRegs.idle s.sm.proto)

/-- MODE_SWITCH into SERVICE (43_service_mode.md R226). -/
def switchIn (s : State) : State := (s.withMode .service).withSm { s.sm with proto := s.targetProto }

/-- MODE_SWITCH out of SERVICE (43_service_mode.md R227), the return to the scheduler (60_exceptions.md R320). -/
def switchOut (P : Params) (s : State) : State :=
  ((if s.sm.op = .none then s else emit P (.smResult s.sm.proto .aborted s.sm.op s.sm.cv 0) s).destroySession).withMode
    .normal

/-! ### The DRIVER's port and the trigger -/

/-- The start of a transaction: `BUSY <- 1`, `INFL`, and the DRIVER's job (60_exceptions.md R330 to R333). -/
def State.begin (s : State) (f : InFlight) (j : DriverJob) : State := { s with infl := some f, driver := some j }

/-- `BUSY <- 0` at the DRIVER's completion (60_exceptions.md R331). -/
def State.finish (s : State) : State := { s with infl := none, driver := none }

/-- `trig(class)` (60_exceptions.md R338). -/
def trig (c : TxClass) (s : State) : State := if s.trigEnabled c then s.label (.trig c) else s

end Sys2Proof.Machine
end

