-- ==== Sys2Proof/Machine/Operands.lean ====
section
/-! DEFINITION. The operand checks of a command, in the order of 40_registry_commands.md R132: the mode check (2), the
zero fields (3), PROTO (4), ADDR (5); SPEED (6), FUNCS (7) and the commands' own checks (8) use `require`. Check 1, the
opcode, is the decoder's. -/

namespace Sys2Proof.Machine

/-- A check: pass, or reject with the reason. -/
def require (pass : Bool) (r : Reason) : Except Reason Unit := if pass then .ok () else .error r

/-- NOP and RDREG are the commands HALTED accepts (40_registry_commands.md R132 check 2, 60_exceptions.md R322). -/
def exemptFromHalt : Instr → Bool
  | .nop _ => true
  | .setgl _ _ _ _ _ _ => false
  | .setga _ _ _ _ _ => false
  | .termgl _ _ _ => false
  | .termga _ _ _ => false
  | .smenter _ _ => false
  | .smexit _ => false
  | .smwrite _ _ _ => false
  | .smread _ _ _ => false
  | .cfgwr _ _ _ _ => false
  | .rdreg _ _ _ _ => true

/-- Whether the zero fields of the command's format are zero (30_encoding.md R100, R101). -/
def zeroFieldsClear : Instr → Bool
  | .nop z => z == 0
  | .setgl _ _ _ _ z _ => z == 0
  | .setga _ _ z _ _ => z == 0
  | .termgl _ _ z => z == 0
  | .termga _ _ z => z == 0
  | .smenter _ z => z == 0
  | .smexit z => z == 0
  | .smwrite z _ _ => z == 0
  | .smread z _ z2 => z == 0 && z2 == 0
  | .cfgwr z _ z2 _ => z == 0 && z2 == 0
  | .rdreg z _ z2 z3 => z == 0 && z2 == 0 && z3 == 0

/-- Checks 2 and 3 of 40_registry_commands.md R132. -/
def preCheck (i : Instr) (s : State) : Except Reason Unit := do
  require (decide (s.mode ≠ .halted) || exemptFromHalt i) .halted
  require (zeroFieldsClear i) .reservedNonzero

/-- The upper end of the address range of (p, k); none where the range is empty (20_memory.md Table R83). -/
def addrMax (P : Params) : Proto → Kind → Option Nat
  | .dcc, .gl => some P.addrMaxDccGl
  | .mm, .gl => some P.addrMaxMmGl
  | .mfx, .gl => some P.addrMaxMfxGl
  | .dcc, .ga => some P.gaMaxDcc
  | .mm, .ga => some P.addrMaxMmGa
  | .mfx, .ga => none

/-- The protocol of a PROTO field: check 4 for a command that addresses no slot. -/
def protoOperand : Option Proto → Except Reason Proto
  | some p => .ok p
  | none => .error .badProto

/-- The slot key of a command's PROTO and ADDR: checks 4 and 5 of 40_registry_commands.md R132 against 20_memory.md
Table R83. -/
def keyOperand (P : Params) (proto : Option Proto) (k : Kind) (addr : BitVec 14) : Except Reason SlotKey := do
  let p ← protoOperand proto
  match addrMax P p k with
  | none => .error .badProto
  | some hi =>
    require (decide (P.addrMin ≤ addr.toNat ∧ addr.toNat ≤ hi)) .badAddr
    pure ⟨p, k, addr⟩

/-- Whether the address is in the valid range of (p, k) (20_memory.md R83). -/
def addrValid (P : Params) (key : SlotKey) : Bool :=
  match addrMax P key.proto key.kind with
  | none => false
  | some hi => decide (P.addrMin ≤ key.addr.toNat ∧ key.addr.toNat ≤ hi)

/-- Whether a FUNCS word sets no bit above `FUNC_MAX[p]`: `FUNCS >> (FUNC_MAX[p] + 1) = 0` (40_registry_commands.md R132
check 7). -/
def funcsWithin (P : Params) (p : Proto) (funcs : BitVec 32) : Bool := decide (funcs.toNat >>> (P.funcMax p + 1) = 0)

/-- `GAP_US[p]` (00_scope.md R8, 42_encoder_mux.md R202). -/
def gapUs (P : Params) : Proto → Nat
  | .dcc => P.gapDcc
  | .mm => P.gapMm
  | .mfx => P.gapMfx

/-- The low 32 bits and the next 32 bits of NOW (10_state.md R38). -/
def nowLo (t : Nat) : BitVec 32 := BitVec.ofNat 32 t

/-- `NOW[63:32]` (10_state.md R38). -/
def nowHi (t : Nat) : BitVec 32 := BitVec.ofNat 32 (t >>> 32)

/-- `value(REG)` (44_config_status.md R276); none for the reserved indexes 6 to 15 (10_state.md R39). -/
def registerValue (s : State) (reg : BitVec 4) : Option (BitVec 32) :=
  match reg.toNat with
  | 0 => some (s.ctrl &&& ~~~ctrlReservedMask)
  | 1 => some s.s88Maxint
  | 2 => some s.statusWord
  | 3 => some (s.pktCnt.setWidth 32)
  | 4 => some (nowLo s.now)
  | 5 => some (nowHi s.now)
  | _ => none

end Sys2Proof.Machine
end

