-- ==== Sys2Proof/Machine/Registers.lean ====
section
/-! DEFINITION. The register commands CFGWR and RDREG (44_config_status.md). -/

namespace Sys2Proof.Machine

/-- CFGWR (44_config_status.md R271): only registers 0 and 1 are writable (10_state.md R39). -/
def cfgwrRule (_P : Params) (zero : BitVec 16) (reg : BitVec 4) (zero2 : BitVec 8) (value : BitVec 32) (s : State) :
    Except Reason State := do
  preCheck (.cfgwr zero reg zero2 value) s
  require (decide (reg.toNat ≤ 1)) .badReg
  require (decide (reg = 0 → value &&& ctrlReservedMask = 0)) .reservedNonzero
  pure (if reg = 0 then s.withCtrl value else s.withMaxint value)

/-- RDREG (44_config_status.md R275, R276). -/
def rdregRule (P : Params) (zero : BitVec 16) (reg : BitVec 4) (zero2 : BitVec 8) (zero3 : BitVec 32) (s : State) :
    Except Reason State := do
  preCheck (.rdreg zero reg zero2 zero3) s
  match registerValue s reg with
  | none => .error .badReg
  | some v => pure (emit P (.reg reg v) s)

/-- The meaning of CFGWR. -/
def execCfgwr (zero : BitVec 16) (reg : BitVec 4) (zero2 : BitVec 8) (value : BitVec 32) (s : State) :
    Host.Outcome State Fault Refusal :=
  .next (settle params (encode (.cfgwr zero reg zero2 value)) s (cfgwrRule params zero reg zero2 value s))

/-- The meaning of RDREG. -/
def execRdreg (zero : BitVec 16) (reg : BitVec 4) (zero2 : BitVec 8) (zero3 : BitVec 32) (s : State) :
    Host.Outcome State Fault Refusal :=
  .next (settle params (encode (.rdreg zero reg zero2 zero3)) s (rdregRule params zero reg zero2 zero3 s))

end Sys2Proof.Machine
end

