-- ==== Sys2Proof/Machine/Registry.lean ====
section
/-! DEFINITION. The registry commands NOP, SETGL, SETGA, TERMGL, TERMGA (40_registry_commands.md). Each rule says what the
command does when accepted, or why it is rejected; `settle` turns either into the state after it. -/

namespace Sys2Proof.Machine

/-- The slot write of SETGL and SETGA (40_registry_commands.md R133, R134, R135, R136). -/
def setSlot (key : SlotKey) (pl : Payload) (s : State) : State :=
  let old := s.slot key
  s.writeSlot key
    { valid := true
      dirty := true
      eligibleAt := if old.valid then old.eligibleAt else max old.eligibleAt s.now
      payload := pl }

/-- The slot write of TERMGL and TERMGA: `eligible_at` is kept (40_registry_commands.md R137, R139). -/
def clearSlot (key : SlotKey) (s : State) : State :=
  s.writeSlot key { Slot.reset key.kind with eligibleAt := (s.slot key).eligibleAt }

/-- NOP (40_registry_commands.md R131). -/
def nopRule (_P : Params) (zero : BitVec 60) (s : State) : Except Reason State := do
  preCheck (.nop zero) s
  pure s

/-- SETGL (40_registry_commands.md R133). -/
def setglRule (P : Params) (proto : Option Proto) (addr : BitVec 14) (speed : BitVec 8) (dir : BitVec 1)
    (zero : BitVec 3) (funcs : BitVec 32) (s : State) : Except Reason State := do
  preCheck (.setgl proto addr speed dir zero funcs) s
  let key ← keyOperand P proto .gl addr
  require (decide (speed.toNat ≤ P.speedMax key.proto)) .badSpeed
  require (funcsWithin P key.proto funcs) .badFunc
  pure (setSlot key (.gl speed dir funcs) s)

/-- SETGA (40_registry_commands.md R136). -/
def setgaRule (P : Params) (proto : Option Proto) (addr : BitVec 14) (zero : BitVec 42) (port action : BitVec 1)
    (s : State) : Except Reason State := do
  preCheck (.setga proto addr zero port action) s
  let key ← keyOperand P proto .ga addr
  pure (setSlot key (.ga port action) s)

/-- TERMGL (40_registry_commands.md R137). -/
def termglRule (P : Params) (proto : Option Proto) (addr : BitVec 14) (zero : BitVec 44) (s : State) :
    Except Reason State := do
  preCheck (.termgl proto addr zero) s
  let key ← keyOperand P proto .gl addr
  require (s.slot key).valid .noSlot
  pure (clearSlot key s)

/-- TERMGA (40_registry_commands.md R138). -/
def termgaRule (P : Params) (proto : Option Proto) (addr : BitVec 14) (zero : BitVec 44) (s : State) :
    Except Reason State := do
  preCheck (.termga proto addr zero) s
  let key ← keyOperand P proto .ga addr
  require (s.slot key).valid .noSlot
  pure (clearSlot key s)

/-- The meaning of NOP. -/
def execNop (zero : BitVec 60) (s : State) : Host.Outcome State Fault Refusal :=
  .next (settle params (encode (.nop zero)) s (nopRule params zero s))

/-- The meaning of SETGL. -/
def execSetgl (proto : Option Proto) (addr : BitVec 14) (speed : BitVec 8) (dir : BitVec 1) (zero : BitVec 3)
    (funcs : BitVec 32) (s : State) : Host.Outcome State Fault Refusal :=
  .next (settle params (encode (.setgl proto addr speed dir zero funcs)) s
    (setglRule params proto addr speed dir zero funcs s))

/-- The meaning of SETGA. -/
def execSetga (proto : Option Proto) (addr : BitVec 14) (zero : BitVec 42) (port action : BitVec 1) (s : State) :
    Host.Outcome State Fault Refusal :=
  .next (settle params (encode (.setga proto addr zero port action)) s (setgaRule params proto addr zero port action s))

/-- The meaning of TERMGL. -/
def execTermgl (proto : Option Proto) (addr : BitVec 14) (zero : BitVec 44) (s : State) :
    Host.Outcome State Fault Refusal :=
  .next (settle params (encode (.termgl proto addr zero)) s (termglRule params proto addr zero s))

/-- The meaning of TERMGA. -/
def execTermga (proto : Option Proto) (addr : BitVec 14) (zero : BitVec 44) (s : State) :
    Host.Outcome State Fault Refusal :=
  .next (settle params (encode (.termga proto addr zero)) s (termgaRule params proto addr zero s))

end Sys2Proof.Machine
end

