-- ==== Sys2Proof/Machine/ServiceCommands.lean ====
section
/-! DEFINITION. The service-mode commands SMENTER, SMEXIT, SMWRITE, SMREAD (43_service_mode.md section 2). -/

namespace Sys2Proof.Machine

/-- SMENTER (43_service_mode.md R221). -/
def smenterRule (P : Params) (proto : Option Proto) (zero : BitVec 58) (s : State) : Except Reason State := do
  preCheck (.smenter proto zero) s
  let p ← protoOperand proto
  require (!s.target) .badMode
  require (P.smSupport p) .smUnsupported
  pure (s.withTarget true p)

/-- SMEXIT (43_service_mode.md R222). -/
def smexitRule (_P : Params) (zero : BitVec 60) (s : State) : Except Reason State := do
  preCheck (.smexit zero) s
  require s.target .badMode
  pure (s.withTarget false s.targetProto)

/-- The own checks of SMWRITE and SMREAD, in their order (43_service_mode.md R223, R224). -/
def sessionCheck (P : Params) (cv : BitVec 16) (s : State) : Except Reason Unit := do
  require (decide (s.mode = .service ∧ s.target = true)) .badMode
  require (decide (s.sm.op = .none)) .smBusy
  require (decide (1 ≤ cv.toNat ∧ cv.toNat ≤ P.cvMax s.sm.proto)) .badCv

/-- The creation of a session (43_service_mode.md R223, R224; 10_state.md R40). -/
def createSession (op : SmOp) (cv : BitVec 16) (value : BitVec 8) (s : State) : State :=
  s.withSm { s.sm with op := op, cv := cv, val := value, retry := 0, state := .selectop }

/-- SMWRITE (43_service_mode.md R223). -/
def smwriteRule (P : Params) (zero : BitVec 36) (cv : BitVec 16) (value : BitVec 8) (s : State) :
    Except Reason State := do
  preCheck (.smwrite zero cv value) s
  sessionCheck P cv s
  pure (createSession .write cv value s)

/-- SMREAD (43_service_mode.md R224). -/
def smreadRule (P : Params) (zero : BitVec 36) (cv : BitVec 16) (zero2 : BitVec 8) (s : State) :
    Except Reason State := do
  preCheck (.smread zero cv zero2) s
  sessionCheck P cv s
  pure (createSession .read cv 0 s)

/-- The meaning of SMENTER. -/
def execSmenter (proto : Option Proto) (zero : BitVec 58) (s : State) : Host.Outcome State Fault Refusal :=
  .next (settle params (encode (.smenter proto zero)) s (smenterRule params proto zero s))

/-- The meaning of SMEXIT. -/
def execSmexit (zero : BitVec 60) (s : State) : Host.Outcome State Fault Refusal :=
  .next (settle params (encode (.smexit zero)) s (smexitRule params zero s))

/-- The meaning of SMWRITE. -/
def execSmwrite (zero : BitVec 36) (cv : BitVec 16) (value : BitVec 8) (s : State) :
    Host.Outcome State Fault Refusal :=
  .next (settle params (encode (.smwrite zero cv value)) s (smwriteRule params zero cv value s))

/-- The meaning of SMREAD. -/
def execSmread (zero : BitVec 36) (cv : BitVec 16) (zero2 : BitVec 8) (s : State) :
    Host.Outcome State Fault Refusal :=
  .next (settle params (encode (.smread zero cv zero2)) s (smreadRule params zero cv zero2 s))

end Sys2Proof.Machine
end

