-- ==== Sys2Proof/Machine/Dispatch.lean ====
section
/-! DEFINITION. The dispatcher: one arm per host command (30_encoding.md Table R103). -/

namespace Sys2Proof.Machine

def exec (i : Instr) (s : State) : Host.Outcome State Fault Refusal :=
  match i with
  | .nop zero => Sys2Proof.Machine.execNop zero s
  | .setgl proto addr speed dir zero funcs => Sys2Proof.Machine.execSetgl proto addr speed dir zero funcs s
  | .setga proto addr zero port action => Sys2Proof.Machine.execSetga proto addr zero port action s
  | .termgl proto addr zero => Sys2Proof.Machine.execTermgl proto addr zero s
  | .termga proto addr zero => Sys2Proof.Machine.execTermga proto addr zero s
  | .smenter proto zero => Sys2Proof.Machine.execSmenter proto zero s
  | .smexit zero => Sys2Proof.Machine.execSmexit zero s
  | .smwrite zero cv value => Sys2Proof.Machine.execSmwrite zero cv value s
  | .smread zero cv zero2 => Sys2Proof.Machine.execSmread zero cv zero2 s
  | .cfgwr zero reg zero2 value => Sys2Proof.Machine.execCfgwr zero reg zero2 value s
  | .rdreg zero reg zero2 zero3 => Sys2Proof.Machine.execRdreg zero reg zero2 zero3 s

end Sys2Proof.Machine
end

