-- ==== Sys2Proof/Machine/Driver.lean ====
section
/-! DEFINITION. The DRIVER's completion step (60_exceptions.md R331): when it is enabled, and what it does for each kind of
transaction: SCHED_DONE (41_scheduler.md R160), SM_PKT_DONE and SM_ACK_DONE (43_service_mode.md R234, R237), S88_DONE
(45_s88_mfx.md R294). -/

namespace Sys2Proof.Machine

/-- Whether the DRIVER may complete now with this draw (60_exceptions.md R331; a sample has no TIMING_MISS, Table R334). -/
def driverEnabled (P : Params) (s : State) (d : Draw) : Bool :=
  match s.infl with
  | none => false
  | some (.ack t) => decide (t + P.smAckWindowUs s.sm.proto ≤ s.now) && decide (d.status ≠ .timingMiss)
  | some (.cmd _ _ _ _ t) => decide (t ≤ s.now)
  | some (.smpkt t) => decide (t ≤ s.now)
  | some (.s88 t) => decide (t ≤ s.now)

/-- The part of SCHED_DONE that every status shares: `BUSY`, the gap, the pause and the packet count
(41_scheduler.md R160, R161, R163, R166). -/
def schedTimers (key : SlotKey) (gap pause : Nat) (s : State) : State :=
  ((s.finish.writeSlot key { s.slot key with eligibleAt := s.now + gap }).raisePause key.proto
    (s.now + pause)).countPacket

/-- `SLOT[key].dirty <- SLOT[key].dirty or INFL.was_dirty`, for a valid slot (41_scheduler.md R160, R164, R165). -/
def restoreDirty (key : SlotKey) (wasDirty : Bool) (s : State) : State :=
  if (s.slot key).valid then s.writeSlot key { s.slot key with dirty := (s.slot key).dirty || wasDirty } else s

/-- SCHED_DONE (41_scheduler.md R160). -/
def schedDone (P : Params) (key : SlotKey) (wasDirty : Bool) (gap pause : Nat) (st : TxStatus) (s : State) : State :=
  let s1 := schedTimers key gap pause s
  match st with
  | .ok => s1
  | .timingMiss =>
    emit P (.timingMiss (protoCode key.proto) key.addr (classOfKind key.kind)) (restoreDirty key wasDirty s1)
  | .fault => halt P (classOfKind key.kind) s1

/-- The sequencer's move at the completion of a service-mode packet at time t (43_service_mode.md R234). -/
def smAfterPacket (P : Params) (t : Nat) (r : SmRegs) : SmRegs :=
  match r.phase with
  | .write =>
    if (r.rep + 1).toNat = P.smWriteRepeat r.proto then { r with rep := r.rep + 1, phase := .verify }
    else { r with rep := r.rep + 1 }
  | .bitv => { r with deadline := t + P.smAckDelayUs r.proto, state := .sample }
  | .verify => { r with deadline := t + P.smAckDelayUs r.proto, state := .sample }

/-- SM_PKT_DONE (43_service_mode.md R234). -/
def smPktDone (P : Params) (st : TxStatus) (s : State) : State :=
  let s1 := s.finish.countPacket
  match st with
  | .ok => s1.withSm (smAfterPacket P s.now s1.sm)
  | .timingMiss =>
    let s2 := emit P (.timingMiss (protoCode s1.sm.proto) 0 .sm) s1
    s2.withSm (smAfterPacket P s.now s2.sm)
  | .fault => halt P .sm s1

/-- The sequencer's move at the completion of a sample (43_service_mode.md R237). No sample is taken in phase WRITE
(Table R229): nothing changes there (notes/assumptions/12.md). -/
def smAfterAck (ack : Bool) (r : SmRegs) : SmRegs :=
  match r.phase with
  | .bitv =>
    if r.bit.toNat < 7 then { r with acc := setBit r.acc r.bit ack, bit := r.bit + 1, state := .transmit }
    else { r with acc := setBit r.acc r.bit ack, phase := .verify, state := .transmit }
  | .verify => { r with state := if ack then .done else .retry }
  | .write => r

/-- SM_ACK_DONE (43_service_mode.md R237). -/
def smAckDone (P : Params) (ack : Bool) (st : TxStatus) (s : State) : State :=
  match st with
  | .fault => halt P .sm s.finish
  | .ok => s.finish.withSm (smAfterAck ack s.sm)
  | .timingMiss => s.finish.withSm (smAfterAck ack s.sm)

/-- The low `S88_BITS` bits of a drawn vector (60_exceptions.md Table R334; notes/assumptions/9.md). -/
def s88Frame (P : Params) (v : S88Vector) : S88Vector := BitVec.ofNat 65536 (v.toNat % 2 ^ P.s88Bits)

/-- The change events of two frames: one for each differing bit, in ascending order (45_s88_mfx.md R294, R295). -/
def s88Events (P : Params) (prev cur : S88Vector) : List Event :=
  ((List.range P.s88Bits).filter (fun i => cur.getLsbD i != prev.getLsbD i)).map
    (fun i => .s88 (BitVec.ofNat 16 i) (cur.getLsbD i))

/-- S88_DONE (45_s88_mfx.md R294). -/
def s88Done (P : Params) (v : S88Vector) (st : TxStatus) (s : State) : State :=
  let s1 := s.finish.countPoll
  match st with
  | .ok =>
    let s2 := emitAll P (s88Events P s.s88Cur (s88Frame P v)) (s1.withFrame s.s88Cur (s88Frame P v))
    if s88Frame P v = s.s88Cur then s2 else trig .s88 s2
  | .timingMiss => emit P (.timingMiss 0 0 .s88) s1
  | .fault => halt P .s88 s1

/-- The completion of the transaction in flight (60_exceptions.md R331). -/
def complete (P : Params) (d : Draw) (s : State) : State :=
  match s.infl with
  | none => s
  | some (.cmd key wasDirty gap pause _) => schedDone P key wasDirty gap pause d.status s
  | some (.smpkt _) => smPktDone P d.status s
  | some (.ack _) => smAckDone P d.ack d.status s
  | some (.s88 _) => s88Done P d.vector d.status s

end Sys2Proof.Machine
end

