-- ==== Sys2Proof/Machine/Mux.lean ====
section
/-! DEFINITION. The encoder multiplexer (42_encoder_mux.md section 3) and the MM address translation (20_memory.md
section 6). -/

namespace Sys2Proof.Machine

/-- The signed wire address of a slot address: shifted by `MM_SHIFT` for MM when `CTRL.MMCORR` is 1, never reduced
(20_memory.md R86, R87). -/
def wireAddr (P : Params) (mmCorr : Bool) (key : SlotKey) : Int :=
  if key.proto = .mm ∧ mmCorr = true then (key.addr.toNat : Int) - P.mmShift else key.addr.toNat

/-- `Mux(key, payload)` (42_encoder_mux.md R200, R202). -/
def mux (P : Params) (mmCorr : Bool) (key : SlotKey) (pl : Payload) : PacketBuffer P.pktMaxBits where
  toPacketBits := P.enc key.proto key.kind (wireAddr P mmCorr key) pl
  gapUs := gapUs P key.proto
  pauseUs := P.pauseUs key.proto key.kind pl

/-- `MuxSM(phase, cv, data)` for the session's protocol: no gap and no pause (42_encoder_mux.md R204). -/
def muxSm (P : Params) (p : Proto) (ph : SmPhase) (cv : BitVec 16) (d : SmData) : PacketBuffer P.pktMaxBits where
  toPacketBits := P.encSm p ph cv d
  gapUs := 0
  pauseUs := 0

end Sys2Proof.Machine
end

