-- ==== Sys2Proof/Machine/Scheduler.lean ====
section
/-! DEFINITION. The scheduler: eligibility, priority, the order of decisions at an output opportunity, the selection, and
the wake time (41_scheduler.md); when an S88 poll is due (45_s88_mfx.md R290). -/

namespace Sys2Proof.Machine

/-- `Elig(key, t)` (41_scheduler.md R152). -/
def eligible (s : State) (t : Nat) (key : SlotKey) : Bool :=
  (s.slot key).valid && decide ((s.slot key).eligibleAt ≤ t) && decide (s.pauseUntil.get key.proto ≤ t)

/-- The keys the arena lists; every other slot is as after reset, so not valid. -/
def Arena.keys (m : Arena) : List SlotKey := m.map Prod.fst

/-- `Cand(t)` (41_scheduler.md R152). -/
def cand (s : State) (t : Nat) : List SlotKey := s.arena.keys.filter (eligible s t)

/-- The sort key (41_scheduler.md R153): 1 − dirty, eligible_at, protocol, kind, address. -/
def sortKey (s : State) (key : SlotKey) : List Nat :=
  [1 - (s.slot key).dirty.toNat, (s.slot key).eligibleAt, (protoCode key.proto).toNat, kindCode key.kind, key.addr.toNat]

/-- The lexicographic order, each component as an unsigned number (41_scheduler.md R153). -/
def lexLt : List Nat → List Nat → Bool
  | a :: as, b :: bs => decide (a < b) || (a == b && lexLt as bs)
  | [], _ :: _ => true
  | _, [] => false

/-- `best(C)`: the member with the least sort key (41_scheduler.md R153). -/
def best (s : State) : List SlotKey → Option SlotKey
  | [] => none
  | k :: ks =>
    match best s ks with
    | none => some k
    | some b => if lexLt (sortKey s b) (sortKey s k) then some b else some k

/-- The count trigger of `S88Due` (45_s88_mfx.md R290). -/
def s88CountTrigger (P : Params) (s : State) : Bool := decide (0 < P.s88Npkt ∧ P.s88Npkt ≤ s.pktCnt.toNat)

/-- The time trigger of `S88Due` at time t (45_s88_mfx.md R290). -/
def s88TimeTrigger (s : State) (t : Nat) : Bool :=
  decide (0 < s.s88Maxint.toNat ∧ s.s88Last + s.s88Maxint.toNat ≤ t)

/-- `S88Due(t)` (45_s88_mfx.md R290). -/
def s88Due (P : Params) (s : State) (t : Nat) : Bool := s.s88En && (s88CountTrigger P s || s88TimeTrigger s t)

/-- Whether a due poll would be granted at an output opportunity (45_s88_mfx.md R292): the mode is NORMAL or SERVICE, no
mode switch is pending and the sequencer is not in SAMPLE. -/
def s88Allowed (s : State) : Bool :=
  match s.mode with
  | .normal => !s.target && decide (s.sm.state ≠ .sample)
  | .service => s.target && decide (s.sm.state ≠ .sample)
  | .halted => false

/-- The steps of the PSB (41_scheduler.md R156, 43_service_mode.md R230). -/
inductive PsbRule where
  | switchIn
  | switchOut
  | s88Start
  | schedSelect (key : SlotKey)
  | selectOp
  | transmit
  | sample
  | retry
  | done
  | failed
  deriving DecidableEq, Repr

/-- The sequencer's step for its state at time t (43_service_mode.md R230). -/
def sequencerRule (s : State) (t : Nat) : Option PsbRule :=
  match s.sm.state with
  | .idle => none
  | .selectop => some .selectOp
  | .transmit => some .transmit
  | .sample => if s.sm.deadline ≤ t then some .sample else none
  | .retry => some .retry
  | .done => some .done
  | .failed => some .failed

/-- The first enabled step of the list of 41_scheduler.md R156 at time t, if any: the mode switch, the S88 grant,
SCHED_SELECT or the sequencer's step. None while a transaction is in flight (R150) and none in HALTED. -/
def psbRuleAt (P : Params) (s : State) (t : Nat) : Option PsbRule :=
  if s.busy then none
  else
    match s.mode with
    | .halted => none
    | .normal =>
      if s.target then some .switchIn
      else if s88Due P s t && s88Allowed s then some .s88Start
      else (best s (cand s t)).map .schedSelect
    | .service =>
      if !s.target then some .switchOut
      else if s88Due P s t && s88Allowed s then some .s88Start
      else sequencerRule s t

/-- The PSB step enabled now. -/
def psbRule (P : Params) (s : State) : Option PsbRule := psbRuleAt P s s.now

/-- SCHED_SELECT (41_scheduler.md R157). -/
def schedSelect (P : Params) (key : SlotKey) (s : State) : State :=
  let sl := s.slot key
  let pkt := mux P s.mmCorr key sl.payload
  trig (classOfKind key.kind)
    ((s.writeSlot key { sl with dirty := false }).begin (.cmd key sl.dirty pkt.gapUs pkt.pauseUs s.now)
      (.tx pkt.bits ⟨key.proto, classOfKind key.kind, s.spiSel⟩))

/-- S88_START (45_s88_mfx.md R292). -/
def s88Start (s : State) : State := s.begin (.s88 s.now) .s88

/-- The least of some times. -/
def least : List Nat → Option Nat
  | [] => none
  | t :: ts =>
    match least ts with
    | none => some t
    | some u => some (min t u)

/-- The times whose minimum is the wake time (41_scheduler.md R175 (i), (ii), (iii)). -/
def wakeTimes (s : State) : List Nat :=
  (if s.mode = .normal ∧ s.target = false then
    (s.arena.keys.filter (fun k => (s.slot k).valid)).map
      (fun k => max (s.slot k).eligibleAt (s.pauseUntil.get k.proto))
   else [])
  ++ (if s.s88En ∧ 0 < s.s88Maxint.toNat ∧ s88Allowed s then [s.s88Last + s.s88Maxint.toNat] else [])
  ++ (if s.mode = .service ∧ s.sm.state = .sample then [s.sm.deadline] else [])

/-- The wake time `W` of a state with no PSB step enabled (41_scheduler.md R175); none is the spec's infinite. -/
def wake (s : State) : Option Nat := least (wakeTimes s)

end Sys2Proof.Machine
end

