-- ==== Sys2Proof/Machine/Sequencer.lean ====
section
/-! DEFINITION. The steps of the service-mode sequencer that the PSB takes at an output opportunity (43_service_mode.md
section 4). -/

namespace Sys2Proof.Machine

/-- SELECTOP: the start of an attempt (43_service_mode.md R232). -/
def smSelectOp (s : State) : State :=
  s.withSm { s.sm with
    rep := 0
    bit := 0
    acc := 0
    phase := if s.sm.op = .write then .write else .bitv
    state := .transmit }

/-- The data of the next service-mode packet (43_service_mode.md R233). -/
def smData (r : SmRegs) : SmData :=
  match r.phase with
  | .write => .byte r.val
  | .verify => .byte (if r.op = .write then r.val else r.acc)
  | .bitv => .bit r.bit 1

/-- TRANSMIT: start one service-mode packet (43_service_mode.md R233). -/
def smTransmit (P : Params) (s : State) : State :=
  let pkt := muxSm P s.sm.proto s.sm.phase s.sm.cv (smData s.sm)
  trig .sm (s.begin (.smpkt s.now) (.tx pkt.bits ⟨s.sm.proto, .sm, s.spiSel⟩))

/-- SAMPLE: open the acknowledgement window (43_service_mode.md R236). -/
def smSample (P : Params) (s : State) : State := s.begin (.ack s.now) (.ack (P.smAckWindowUs s.sm.proto))

/-- RETRY (43_service_mode.md R239). -/
def smRetry (P : Params) (s : State) : State :=
  if s.sm.retry.toNat < P.smRetryMax s.sm.proto then
    s.withSm { s.sm with retry := s.sm.retry + 1, state := .selectop }
  else s.withSm { s.sm with state := .failed }

/-- The byte a finished operation reports (43_service_mode.md R241). -/
def smValue (r : SmRegs) : BitVec 8 := if r.op = .write then r.val else r.acc

/-- DONE (43_service_mode.md R241). -/
def smDone (P : Params) (s : State) : State :=
  (emit P (.smResult s.sm.proto .ok s.sm.op s.sm.cv (smValue s.sm)) s).destroySession

/-- FAILED (43_service_mode.md R242). -/
def smFailed (P : Params) (s : State) : State :=
  (emit P (.smResult s.sm.proto .failed s.sm.op s.sm.cv 0) s).destroySession

end Sys2Proof.Machine
end

