-- ==== Sys2Proof/Machine/Agents.lean ====
section
/-! DEFINITION. The steps of the four agents but for a command word (00_scope.md R5, 60_exceptions.md Table R344): POP, the
PSB's step, the DRIVER's completion, the CLOCK, and reset. -/

namespace Sys2Proof.Machine

/-- An offered step whose enabling condition does not hold: no agent acts (notes/assumptions/2.md). -/
def passedOver (s : State) : State := s.label .notEnabled

/-- What the PSB does by each of its rules. -/
def runPsbRule (P : Params) : PsbRule → State → State
  | .switchIn, s => switchIn s
  | .switchOut, s => switchOut P s
  | .s88Start, s => s88Start s
  | .schedSelect key, s => schedSelect P key s
  | .selectOp, s => smSelectOp s
  | .transmit, s => smTransmit P s
  | .sample, s => smSample P s
  | .retry, s => smRetry P s
  | .done, s => smDone P s
  | .failed, s => smFailed P s

/-- The PSB's step (41_scheduler.md R156). -/
def psbStep (P : Params) (s : State) : State :=
  match psbRule P s with
  | some r => runPsbRule P r s
  | none => passedOver s

/-- The DRIVER's completion step (60_exceptions.md R331). -/
def driverStep (P : Params) (d : Draw) (s : State) : State :=
  if driverEnabled P s d then complete P d s else passedOver s

/-- Whether the CLOCK may advance NOW by dt (41_scheduler.md R176). -/
def clockEnabled (P : Params) (dt : Nat) (s : State) : Bool :=
  decide (0 < dt) && (s.busy || ((psbRule P s).isNone && (wake s).all (fun w => decide (s.now + dt ≤ w))))

/-- The CLOCK's step (41_scheduler.md R176, 10_state.md R31). -/
def clockStep (P : Params) (dt : Nat) (s : State) : State :=
  if clockEnabled P dt s then s.withNow (s.now + dt) else passedOver s

/-- POP (60_exceptions.md R327). -/
def popStep (s : State) : State :=
  match s.evq with
  | [] => passedOver s
  | w :: rest => ({ s with evq := rest }).label (.popped w)

/-- Reset (70_reset_and_hazards.md R350): every piece of the machine's state, and the DRIVER with it, at its reset value;
what the environment has still to offer is not the machine's. -/
def resetStep (s : State) : State := { State.reset with agenda := s.agenda, drawn := s.drawn }

end Sys2Proof.Machine
end

