-- ==== Sys2Proof/Machine/Fetch.lean ====
section
/-! DEFINITION. Where the next step comes from: the agenda, or the uninterpreted environment when the agenda is empty
(00_scope.md R5, 20_memory.md R70; notes/assumptions/1.md). -/

namespace Sys2Proof.Machine

/-- The step the environment offers next. -/
def nextOffer (s : State) : AgentStep :=
  match s.agenda with
  | [] => Config.environment s.drawn
  | a :: _ => a

/-- The state the offered step starts from: the offer is taken, and the labels of the step before it are gone. -/
def takeOffer (s : State) : State :=
  match s.agenda with
  | [] => { s with drawn := s.drawn + 1, out := [] }
  | _ :: rest => { s with agenda := rest, out := [] }

/-- The command word of a table row: `nbits` bits of w, bit 0 the least significant, the bits above zero. -/
def tableWord (nbits w : Nat) : Word := BitVec.ofNat 64 (w % 2 ^ nbits)

/-- The state in which the HOST's next step presents a word: it stands first in the agenda. -/
def presentWord (w : Word) (s : State) : State := { s with agenda := .host w :: s.agenda }

/-- A word that is no command: check 1 of 40_registry_commands.md R132 (BAD_OPCODE, before the mode check). -/
def rejectUndecoded (P : Params) (w : Word) (s : State) : State := reject P .badOpcode w s

end Sys2Proof.Machine
end

