-- ==== Sys2Proof/Machine/Step.lean ====
section
/-! DEFINITION. One step of the machine: the step the environment offers next, taken by the agent whose turn it is. A
command word is decoded and executed in one atomic step (20_memory.md R70). -/

namespace Sys2Proof.Machine

/-- One step (00_scope.md R5, R13). -/
def step (s : State) : Host.Outcome State Fault Refusal :=
  match nextOffer s with
  | .host w =>
    match decode w with
    | .ok i => exec i (takeOffer s)
    | .error _ => .next (rejectUndecoded params w (takeOffer s))
  | .pop => .next (popStep (takeOffer s))
  | .psb => .next (psbStep params (takeOffer s))
  | .driver d => .next (driverStep params d (takeOffer s))
  | .clock dt => .next (clockStep params dt (takeOffer s))
  | .reset => .next (resetStep (takeOffer s))

/-- The state whose very next step presents the command word of a table row (notes/assumptions/1.md). -/
def State.withFetchWord (s : State) (nbits w : Nat) : State := presentWord (tableWord nbits w) s

end Sys2Proof.Machine
end

