-- ==== Sys2Proof/Machine/DccReference.lean ====
section
/-! DEFINITION. DCC bytes on the output: the checksum of 42_encoder_mux.md R194, and the reference framing of R207 and R208,
which the spec gives from general knowledge and calls not normative (93 K1, K2). No step of the machine uses them: the
encoders are parameters (notes/assumptions/13.md, notes/assumptions/16.md). -/

namespace Sys2Proof.Machine

/-- The exclusive-or of some bytes (42_encoder_mux.md R194). -/
def xorBytes : List (BitVec 8) → BitVec 8
  | [] => 0
  | b :: bs => b ^^^ xorBytes bs

/-- The bytes with the error-detection byte behind them (42_encoder_mux.md R194, R207). -/
def withChecksum (bytes : List (BitVec 8)) : List (BitVec 8) := bytes ++ [xorBytes bytes]

/-- A byte's bits, most significant first. R194 leaves the order of the bits open; this one is R207's, and the model's choice
(notes/assumptions/16.md). -/
def byteBits (b : BitVec 8) : List Bool :=
  [b.getLsbD 7, b.getLsbD 6, b.getLsbD 5, b.getLsbD 4, b.getLsbD 3, b.getLsbD 2, b.getLsbD 1, b.getLsbD 0]

/-- Bytes on the output: a preamble, a separator before each byte's bits, and a terminator. R194 calls the three the
encoder's; that they stand in this order, with the same separator before every byte, is the model's choice, and so is the
bit order within a byte (notes/assumptions/16.md). -/
def framedBytes (preamble separator terminator : List Bool) (bytes : List (BitVec 8)) : List Bool :=
  preamble ++ bytes.flatMap (fun b => separator ++ byteBits b) ++ terminator

/-- The reference frame: a preamble of one bits, a zero bit before each byte, a one bit at the end (42_encoder_mux.md
R207). -/
def dccFrame (preamble : Nat) (bytes : List (BitVec 8)) : List Bool :=
  framedBytes (List.replicate preamble true) [false] [true] bytes

/-- The address bytes: the 7-bit form for 1..127, the 14-bit form above (42_encoder_mux.md R194, 20_memory.md R85). Where the
bits stand in each form is R207's, from general knowledge (notes/assumptions/16.md). -/
def dccAddressBytes (a : BitVec 14) : List (BitVec 8) :=
  if a.toNat ≤ 127 then [a.setWidth 8] else [3#2 ++ a.extractLsb' 8 6, a.extractLsb' 0 8]

/-- The bytes of a service-mode packet, direct CV addressing (42_encoder_mux.md R208): `0111CCAA AAAAAAAA DDDDDDDD`. -/
def dccServiceBytes (phase : SmPhase) (cv : BitVec 16) (data : SmData) : List (BitVec 8) :=
  let c : BitVec 16 := cv - 1
  let cc : BitVec 2 := match phase with
    | .write => 3
    | .verify => 1
    | .bitv => 2
  let d : BitVec 8 := match data with
    | .byte v => v
    | .bit position value => 7#3 ++ 0#1 ++ value ++ position
  withChecksum [7#4 ++ cc ++ c.extractLsb' 8 2, c.extractLsb' 0 8, d]

/-- The service-mode packet with its long preamble (42_encoder_mux.md R208). -/
def dccServicePacket (phase : SmPhase) (cv : BitVec 16) (data : SmData) : List Bool :=
  dccFrame 20 (dccServiceBytes phase cv data)

end Sys2Proof.Machine
end

