-- ==== Sys2Proof/Machine/Parametric.lean ====
section
/-! DEFINITION. The same machine over any configuration record (70_reset_and_hazards.md R354: "A model takes them as one
configuration record given before the first step"). `Laws/Parametric.lean` proves that `exec` and `step` are `execWith` and
`stepWith` at `params`. -/

namespace Sys2Proof.Machine

/-- What a command's rule answers under a configuration record. -/
def commandRule (P : Params) : Instr → State → Except Reason State
  | .nop zero, s => nopRule P zero s
  | .setgl proto addr speed dir zero funcs, s => setglRule P proto addr speed dir zero funcs s
  | .setga proto addr zero port action, s => setgaRule P proto addr zero port action s
  | .termgl proto addr zero, s => termglRule P proto addr zero s
  | .termga proto addr zero, s => termgaRule P proto addr zero s
  | .smenter proto zero, s => smenterRule P proto zero s
  | .smexit zero, s => smexitRule P zero s
  | .smwrite zero cv value, s => smwriteRule P zero cv value s
  | .smread zero cv zero2, s => smreadRule P zero cv zero2 s
  | .cfgwr zero reg zero2 value, s => cfgwrRule P zero reg zero2 value s
  | .rdreg zero reg zero2 zero3, s => rdregRule P zero reg zero2 zero3 s

/-- The state after a command under a configuration record (00_scope.md R13). -/
def execWith (P : Params) (i : Instr) (s : State) : State := settle P (encode i) s (commandRule P i s)

/-- The state after the HOST presents a word (20_memory.md R70). -/
def hostStep (P : Params) (w : Word) (s : State) : State :=
  match decode w with
  | .ok i => execWith P i s
  | .error _ => rejectUndecoded P w s

/-- The state after an offered step (00_scope.md R5). -/
def agentStep (P : Params) : AgentStep → State → State
  | .host w, s => hostStep P w s
  | .pop, s => popStep s
  | .psb, s => psbStep P s
  | .driver d, s => driverStep P d s
  | .clock dt, s => clockStep P dt s
  | .reset, s => resetStep s

/-- One step under a configuration record. -/
def stepWith (P : Params) (s : State) : State := agentStep P (nextOffer s) (takeOffer s)

end Sys2Proof.Machine
end

