-- ==== Sys2Proof/Safety.lean ====
section
/-! DEFINITION. What counts as a sound state and a sound run: the invariants of 10_state.md R25, R41 and
70_reset_and_hazards.md R355, the vocabulary the statements use, the encoders' contract of 42_encoder_mux.md, and the checks of
40_registry_commands.md R132 written as one list over the bits of a word. -/

namespace Sys2Proof.Machine

/-! ### Offers and runs -/

/-- The state with a step offered next. -/
def State.offering (s : State) (a : AgentStep) : State := { s with agenda := a :: s.agenda }

/-- The state a step leaves: the step's next state. -/
def nextState (s : State) : State :=
  match step s with
  | .next t => t
  | .fault _ => s
  | .refused _ => s

/-- The state after n steps. -/
def after : Nat → State → State
  | 0, s => s
  | n + 1, s => after n (nextState s)

/-- None of the next n steps is a reset. -/
def ResetFree (n : Nat) (s : State) : Prop := ∀ m, m < n → nextOffer (after m s) ≠ .reset

/-- The next step completes a packet of this key. -/
def CompletesPacket (key : SlotKey) (s : State) : Prop :=
  ∃ d wasDirty gap pause t, nextOffer s = .driver d ∧ s.infl = some (.cmd key wasDirty gap pause t) ∧ t ≤ s.now

/-- The next step starts a packet of this key. -/
def StartsPacket (key : SlotKey) (s : State) : Prop :=
  s.infl = none ∧ ∃ wasDirty gap pause t, (nextState s).infl = some (.cmd key wasDirty gap pause t)

/-- The DRIVER completes with OK and an acknowledgement bit. -/
def okDraw (ack : Bool) : Draw := ⟨.ok, ack, 0⟩

/-- The PSB starts a packet and the DRIVER completes it, n times over. -/
def packetTurns : Nat → List AgentStep
  | 0 => []
  | n + 1 => .psb :: .driver (okDraw false) :: packetTurns n

/-- The steps of one write attempt that is acknowledged (43_service_mode.md R235): SELECTOP, n write packets, one verify
packet, the delay, the sample over its window, DONE. -/
def writeAttempt (n : Nat) (delay window : Nat) : List AgentStep :=
  .psb :: packetTurns (n + 1) ++ [.clock delay, .psb, .clock window, .driver (okDraw true), .psb]

/-! ### The invariant -/

/-- The limits of a payload (10_state.md R22, R23). -/
def payloadLegal (P : Params) (key : SlotKey) : Payload → Prop
  | .gl speed _ funcs => key.kind = .gl ∧ speed.toNat ≤ P.speedMax key.proto ∧ funcsWithin P key.proto funcs = true
  | .ga _ _ => key.kind = .ga

/-- The slot invariants (10_state.md R25 (i), (iii); the bound follows from (iv)). -/
structure SlotOk (P : Params) (now : Nat) (key : SlotKey) (sl : Slot) : Prop where
  blank : sl.valid = false → sl.dirty = false ∧ sl.payload = Payload.zero key.kind
  legal : sl.valid = true → addrValid P key = true ∧ payloadLegal P key sl.payload
  bounded : sl.eligibleAt ≤ now + gapUs P key.proto

/-- The session invariants (10_state.md R41, Table R40; 43_service_mode.md R245; 70_reset_and_hazards.md R355). -/
structure SessionOk (P : Params) (m : Mode) (r : SmRegs) : Prop where
  idleIff : r.state = .idle ↔ r.op = .none
  blank : r.op = .none → r = SmRegs.idle r.proto
  normalIdle : m = .normal → r.state = .idle
  cvLegal : r.op ≠ .none → 1 ≤ r.cv.toNat ∧ r.cv.toNat ≤ P.cvMax r.proto
  repLegal : r.rep.toNat ≤ P.smWriteRepeat r.proto
  repOpen : r.state = .transmit → r.phase = .write → r.rep.toNat < P.smWriteRepeat r.proto
  retryLegal : r.retry.toNat ≤ P.smRetryMax r.proto
  samplePhase : r.state = .sample → r.phase ≠ .write

/-- `nbits` is in 1..`PKT_MAX_BITS` (30_encoding.md R110, 42_encoder_mux.md R198). -/
def legalLength (P : Params) (bits : List Bool) : Prop := 1 ≤ bits.length ∧ bits.length ≤ P.pktMaxBits

/-- The transaction in flight agrees with the mode, the session, the time and the DRIVER's job (10_state.md R29,
70_reset_and_hazards.md R355; 41_scheduler.md R162 for `eligible_at`; 30_encoding.md R110 for the bits). -/
def flightOk (P : Params) (s : State) : Option InFlight → Prop
  | none => s.driver = none
  | some (.cmd key _ gap _ t) =>
    s.mode = .normal ∧ gap = gapUs P key.proto ∧ (s.slot key).eligibleAt ≤ s.now ∧ t ≤ s.now ∧
      ∃ bits hint, s.driver = some (.tx bits hint) ∧ legalLength P bits ∧ hint.proto = key.proto ∧
        hint.cls = classOfKind key.kind
  | some (.smpkt t) =>
    s.mode = .service ∧ s.sm.state = .transmit ∧ t ≤ s.now ∧
      ∃ bits hint, s.driver = some (.tx bits hint) ∧ legalLength P bits ∧ hint.proto = s.sm.proto ∧ hint.cls = .sm
  | some (.ack t) =>
    s.mode = .service ∧ s.sm.state = .sample ∧ t ≤ s.now ∧ s.driver = some (.ack (P.smAckWindowUs s.sm.proto))
  | some (.s88 t) => s.mode ≠ .halted ∧ s.sm.state ≠ .sample ∧ t ≤ s.now ∧ s.driver = some .s88

/-- The invariant of every state the machine can reach from reset (10_state.md R25, R41; 70_reset_and_hazards.md R355). -/
structure Inv (P : Params) (s : State) : Prop where
  arena : s.arena.wf = true
  slots : ∀ key, SlotOk P s.now key (s.slot key)
  session : SessionOk P s.mode s.sm
  flight : flightOk P s s.infl
  queue : ∀ d, P.evqDepth = some d → s.evq.length ≤ d
  ctrl : s.ctrl &&& ctrlReservedMask = 0
  frameCur : s.s88Cur.toNat < 2 ^ P.s88Bits
  framePrev : s.s88Prev.toNat < 2 ^ P.s88Bits
  lastPast : s.s88Last ≤ s.now

/-! ### The order of 41_scheduler.md R153, and the ranges of 20_memory.md R83, written out -/

/-- The sort key of k is less than the sort key of j: dirty slots first, then the older `eligible_at`, then protocol, kind
and address (41_scheduler.md R153, R154). -/
def Precedes (s : State) (k j : SlotKey) : Prop :=
  ((s.slot k).dirty = true ∧ (s.slot j).dirty = false) ∨
  ((s.slot k).dirty = (s.slot j).dirty ∧
    ((s.slot k).eligibleAt < (s.slot j).eligibleAt ∨
    ((s.slot k).eligibleAt = (s.slot j).eligibleAt ∧
      ((protoCode k.proto).toNat < (protoCode j.proto).toNat ∨
      (k.proto = j.proto ∧
        (kindCode k.kind < kindCode j.kind ∨ (k.kind = j.kind ∧ k.addr.toNat < j.addr.toNat)))))))

/-- The conditions of `Elig(key, t)` (41_scheduler.md R152). -/
def EligibleAt (s : State) (t : Nat) (key : SlotKey) : Prop :=
  (s.slot key).valid = true ∧ (s.slot key).eligibleAt ≤ t ∧ s.pauseUntil.get key.proto ≤ t

/-- The valid ADDR of a protocol and a kind (20_memory.md Table R83), with the table's own numbers. For a record whose
`ADDR_MAX` differs from the table (R91 calls the ranges fixed, 93 U20 lets an instantiation lower one) the spec does not say
which range holds; that the `addrMax` fields are not read here is the model's choice (notes/assumptions/17.md). -/
def inRange (P : Params) : Proto → Kind → Nat → Prop
  | .dcc, .gl, a => 1 ≤ a ∧ a ≤ 16383
  | .dcc, .ga, a => 1 ≤ a ∧ a ≤ P.gaMaxDcc
  | .mm, .gl, a => 1 ≤ a ∧ a ≤ 255
  | .mm, .ga, a => 1 ≤ a ∧ a ≤ 324
  | .mfx, .gl, a => 1 ≤ a ∧ a ≤ 16383
  | .mfx, .ga, _ => False

/-- The protocol's gap (42_encoder_mux.md Table R205): 5000 for DCC, 50000 for MM, the parameter for mfx. -/
def gapOf : Proto → Nat
  | .dcc => 5000
  | .mm => 50000
  | .mfx => params.gapMfx

/-- Only the slot of one key changed, and the arena's form is kept. -/
def OnlySlotChanged (s t : State) (key : SlotKey) : Prop :=
  t = { s with arena := t.arena } ∧ (∀ k, k ≠ key → t.slot k = s.slot k) ∧ (s.arena.wf = true → t.arena.wf = true)

/-- The times of 41_scheduler.md R175 (i), (ii), (iii). -/
def WakeTime (s : State) (x : Nat) : Prop :=
  (s.mode = .normal ∧ s.target = false ∧
    ∃ k, (s.slot k).valid = true ∧ x = max (s.slot k).eligibleAt (s.pauseUntil.get k.proto)) ∨
  (s.s88En = true ∧ 0 < s.s88Maxint.toNat ∧ s88Allowed s = true ∧ x = s.s88Last + s.s88Maxint.toNat) ∨
  (s.mode = .service ∧ s.sm.state = .sample ∧ x = s.sm.deadline)

/-- The earliest time the DRIVER may complete a transaction (60_exceptions.md R331). -/
def dueTime (s : State) : InFlight → Nat
  | .cmd _ _ _ _ t => t
  | .smpkt t => t
  | .ack t => t + params.smAckWindowUs s.sm.proto
  | .s88 t => t

/-- The class a transaction's events carry (30_encoding.md Table R106). -/
def flightClass : InFlight → TxClass
  | .cmd key _ _ _ _ => classOfKind key.kind
  | .smpkt _ => .sm
  | .ack _ => .sm
  | .s88 _ => .s88

/-- The mode and the target disagree: a mode switch is pending (10_state.md R28). -/
def switchPending (s : State) : Prop :=
  (s.mode = .normal ∧ s.target = true) ∨ (s.mode = .service ∧ s.target = false)

/-- An output opportunity in SERVICE with no mode switch pending and no poll due (43_service_mode.md R230). -/
structure ServiceTurn (s : State) : Prop where
  mode : s.mode = .service
  target : s.target = true
  free : s.infl = none
  quiet : s88Due params s s.now = false

/-! ### The encoders' contract (42_encoder_mux.md R193). Of it the machine has only the bounds (notes/assumptions/4.md). -/

/-- The data of a service-mode packet has the form its phase asks for (42_encoder_mux.md R199). -/
def SmData.fits : SmPhase → SmData → Prop
  | .write, .byte _ => True
  | .verify, .byte _ => True
  | .bitv, .bit _ _ => True
  | .write, .bit _ _ => False
  | .verify, .bit _ _ => False
  | .bitv, .byte _ => False

/-- A wire address that the address of a slot can translate to (42_encoder_mux.md R197, 20_memory.md R86): the address, or,
for MM alone, the address less `MM_SHIFT`. -/
def translatesTo (P : Params) (key : SlotKey) (wire : Int) : Prop :=
  wire = key.addr.toNat ∨ (key.proto = .mm ∧ wire = (key.addr.toNat : Int) - P.mmShift)

/-- The valid input of `ENC[p](k, wire, payload)`, with the slot the wire address comes from (42_encoder_mux.md R197;
20_memory.md R83, R86; 10_state.md R22, R23). Which addresses are valid is `inRange`'s choice (notes/assumptions/17.md). -/
def encInput (P : Params) (key : SlotKey) (wire : Int) (pl : Payload) : Prop :=
  inRange P key.proto key.kind key.addr.toNat ∧ payloadLegal P key pl ∧ translatesTo P key wire

/-- The valid input of `ENC_SM[p](phase, cv, data)`: a protocol with a service mode, a CV in range and data that fit the phase
(42_encoder_mux.md R199). -/
def encSmInput (P : Params) (p : Proto) (ph : SmPhase) (cv : BitVec 16) (d : SmData) : Prop :=
  P.smSupport p = true ∧ 1 ≤ cv.toNat ∧ cv.toNat ≤ P.cvMax p ∧ SmData.fits ph d

/-- 42_encoder_mux.md R197: `DEC[p]` gives back the arguments of `ENC[p]` and of `ENC_SM[p]`, on valid input. -/
structure RoundTrip (P : Params) : Prop where
  registry : ∀ key wire pl, encInput P key wire pl →
    P.dec key.proto (P.enc key.proto key.kind wire pl).bits = some (.registry key.kind wire pl)
  service : ∀ p ph cv d, encSmInput P p ph cv d → P.dec p (P.encSm p ph cv d).bits = some (.service ph cv d)

/-- A call of an encoder: `ENC[p]` for a slot and a wire address, or `ENC_SM[p]`. -/
inductive EncoderCall where
  | registry (key : SlotKey) (wire : Int) (payload : Payload)
  | service (proto : Proto) (phase : SmPhase) (cv : BitVec 16) (data : SmData)
  deriving DecidableEq, Repr

/-- The protocol of the encoder called. -/
def EncoderCall.proto : EncoderCall → Proto
  | .registry key _ _ => key.proto
  | .service p _ _ _ => p

/-- The call is on valid input (42_encoder_mux.md R197 to R199). -/
def EncoderCall.legal (P : Params) : EncoderCall → Prop
  | .registry key wire pl => encInput P key wire pl
  | .service p ph cv d => encSmInput P p ph cv d

/-- The bits the encoder answers. -/
def EncoderCall.bits (P : Params) : EncoderCall → List Bool
  | .registry key wire pl => (P.enc key.proto key.kind wire pl).bits
  | .service p ph cv d => (P.encSm p ph cv d).bits

/-- The bytes of a DCC packet begin with the address, in the 7-bit form for 1..127 and the 14-bit form for 128..16383
(42_encoder_mux.md R194); a service-mode packet has no address (R199). That the address comes first is taken from outside the
rule. R194 names no kind, 20_memory.md R85 gives the forms for GL, and the source is silent on accessories (91 N8): that a GA
packet frames its address in the same two forms is the model's choice (notes/assumptions/16.md). -/
def EncoderCall.dccAddressed : EncoderCall → List (BitVec 8) → Prop
  | .registry key _ _, bytes => dccAddressBytes key.addr <+: bytes
  | .service _ _ _ _, _ => True

/-- What 42_encoder_mux.md R193 asks of the encoders, for every packet of `ENC` and of `ENC_SM` alike. The bit order, the
one framing, and the address forms of GA packets, which `dccBytes` asks for, are the model's choice (notes/assumptions/16.md),
and so is the range of valid addresses (notes/assumptions/17.md). -/
structure EncoderContract (P : Params) : Prop where
  /-- R197 -/
  roundTrip : RoundTrip P
  /-- R198; every parameter record has it by the type `PacketBits` -/
  bounds : ∀ c : EncoderCall, c.legal P → legalLength P (c.bits P)
  /-- R194: bytes whose last is the exclusive-or of the ones before it, the address first. R194 leaves the preamble, the
  separator and the terminator to the encoder; this clause asks one separator and one terminator of all DCC packets, one
  preamble of the registry packets and one of the service-mode packets (the model's choice, notes/assumptions/16.md). -/
  dccBytes : ∃ preamble preambleSm separator terminator, ∀ c : EncoderCall, c.legal P → c.proto = .dcc →
    ∃ bytes, c.dccAddressed bytes ∧ c.bits P =
      framedBytes (match c with | .registry _ _ _ => preamble | .service _ _ _ _ => preambleSm) separator terminator
        (withChecksum bytes)
  /-- R195 -/
  mmInjective : P.MmInjective
  /-- R196: no mfx packet is the beginning of another, so `DEC[MFX]` needs no length -/
  mfxSelfDelimiting : ∀ c d : EncoderCall, c.legal P → d.legal P → c.proto = .mfx → d.proto = .mfx →
    c.bits P <+: d.bits P → c.bits P = d.bits P
  /-- R196: `nbits` of an mfx packet depends on the command -/
  mfxVariableLength : ∃ c d : EncoderCall, c.legal P ∧ d.legal P ∧ c.proto = .mfx ∧ d.proto = .mfx ∧
    (c.bits P).length ≠ (d.bits P).length

/-! ### The checks of a command word, over its bits -/

/-- The zero fields of the formats, by opcode (30_encoding.md R101; spec/opcode_table.json "zero_mask"). -/
def zeroMaskOf : Nat → Word
  | 0 => 0x0FFFFFFFFFFFFFFF
  | 1 => 0x0000000700000000
  | 2 => 0x00000FFFFFFFFFFC
  | 3 => 0x00000FFFFFFFFFFF
  | 4 => 0x00000FFFFFFFFFFF
  | 5 => 0x03FFFFFFFFFFFFFF
  | 6 => 0x0FFFFFFFFFFFFFFF
  | 7 => 0x0FFFFFFFFF000000
  | 8 => 0x0FFFFFFFFF0000FF
  | 9 => 0x0FFFF0FF00000000
  | 10 => 0x0FFFF0FFFFFFFFFF
  | _ => 0

/-- `ADDR_MAX` by protocol code and kind (0 GL, 1 GA), 20_memory.md Table R83; 0 where the range is empty. -/
def topAddress (P : Params) (proto kind : Nat) : Nat :=
  match proto, kind with
  | 0, 0 => P.addrMaxDccGl
  | 1, 0 => P.addrMaxMmGl
  | 2, 0 => P.addrMaxMfxGl
  | 0, 1 => P.gaMaxDcc
  | 1, 1 => P.addrMaxMmGa
  | _, _ => 0

/-- A protocol's parameter by its 2-bit code; 0 for the reserved code. -/
def byCode (f : Proto → Nat) : Nat → Nat
  | 0 => f .dcc
  | 1 => f .mm
  | 2 => f .mfx
  | _ => 0

/-- Whether the slot a word addresses is valid. -/
def addressedSlotValid (w : Word) (k : Kind) (s : State) : Bool :=
  match protoOfCode (field w 58 2) with
  | some p => (s.slot ⟨p, k, field w 44 14⟩).valid
  | none => false

/-- The checks of 40_registry_commands.md R132 in their order, then the commands' own (R137, R138; 43_service_mode.md R221 to
R224; 44_config_status.md R271, R275): each with whether the word FAILS it in this state. Read off the bits of the word,
with no decoder. -/
def wordChecks (P : Params) (w : Word) (s : State) : List (Bool × Reason) :=
  let opc := w.toNat / 2 ^ 60
  let proto := w.toNat / 2 ^ 58 % 4
  let addr := w.toNat / 2 ^ 44 % 2 ^ 14
  let kind := if opc = 2 ∨ opc = 4 then 1 else 0
  let slotCommand := 1 ≤ opc ∧ opc ≤ 4
  let cvCommand := opc = 7 ∨ opc = 8
  let cv := w.toNat / 2 ^ 8 % 2 ^ 16
  let reg := w.toNat / 2 ^ 40 % 16
  [ (decide (11 ≤ opc), .badOpcode),
    (decide (s.mode = .halted ∧ opc ≠ 0 ∧ opc ≠ 10), .halted),
    (decide (w &&& zeroMaskOf opc ≠ 0), .reservedNonzero),
    (decide ((slotCommand ∨ opc = 5) ∧ proto = 3 ∨ kind = 1 ∧ proto = 2), .badProto),
    (decide (slotCommand ∧ ¬(P.addrMin ≤ addr ∧ addr ≤ topAddress P proto kind)), .badAddr),
    (decide (opc = 1 ∧ byCode P.speedMax proto < w.toNat / 2 ^ 36 % 2 ^ 8), .badSpeed),
    (decide (opc = 1 ∧ (w.toNat % 2 ^ 32) >>> (byCode P.funcMax proto + 1) ≠ 0), .badFunc),
    (decide (opc = 3) && !addressedSlotValid w .gl s || decide (opc = 4) && !addressedSlotValid w .ga s, .noSlot),
    (decide (opc = 5 ∧ s.target = true ∨ opc = 6 ∧ s.target = false ∨
      cvCommand ∧ ¬(s.mode = .service ∧ s.target = true)), .badMode),
    (decide (opc = 5 ∧ (byCode (fun p => (P.smSupport p).toNat) proto) = 0), .smUnsupported),
    (decide (cvCommand ∧ s.sm.op ≠ .none), .smBusy),
    (decide (cvCommand ∧ (cv = 0 ∨ P.cvMax s.sm.proto < cv)), .badCv),
    (decide (opc = 9 ∧ 1 < reg ∨ opc = 10 ∧ 5 < reg), .badReg),
    (decide (opc = 9 ∧ reg = 0 ∧ w &&& 0xFFFF00C0 ≠ 0), .reservedNonzero) ]

/-- The reason of the first check a word fails (40_registry_commands.md R132, 60_exceptions.md R312). -/
def firstFailing : List (Bool × Reason) → Option Reason
  | [] => none
  | (fails, r) :: rest => if fails then some r else firstFailing rest

end Sys2Proof.Machine
end

