-- ==== Sys2Proof/Certificates/Slice0/Obligations.lean ====
section
/-! DEFINITION. The statements for the provers. A step of an agent is written `step (s.offering a)`: the environment offers
a next. `out` is the model's record of the labels of the latest step (notes/assumptions/8.md). -/

section

open Sys2Proof Sys2Proof.Machine

/-! ### Encoding -/

/-- 30_encoding.md R100 to R103, 20_memory.md R79: reading back an encoded command, as a word or as its eight bytes in
front of others, gives the command with every field. -/
def Obligations.DecodeAfterEncode : Prop :=
  ∀ i : Instr, decode (encode i) = .ok i ∧
    ∀ rest, decodeBytes (bytesOfWord (encode i) ++ rest) = .ok (i, rest)

/-- 30_encoding.md R103, R104 (i): bits 63:60 alone select the command, 11 to 15 are no command, and a word that is a
command is the word of that command. -/
def Obligations.EncodeAfterDecode : Prop :=
  (∀ w i, decode w = .ok i → encode i = w ∧ (opcodeOf i).toNat = w.toNat / 2 ^ 60) ∧
  (∀ w : Word, w.toNat / 2 ^ 60 ≤ 10 → ∃ i, decode w = .ok i) ∧
  ∀ w : Word, 11 ≤ w.toNat / 2 ^ 60 → decode w = .error .badOpcode

/-- 30_encoding.md R100, R101: the zero fields a decoded command carries are zero exactly when the word is zero under the
format's mask. -/
def Obligations.ZeroFieldsAreTheMaskedBits : Prop :=
  ∀ w i, decode w = .ok i → (i.zeroFieldsZero = true ↔ w &&& zeroMaskOf (w.toNat / 2 ^ 60) = 0)

/-- 30_encoding.md Table R112: the example words decode to the commands they stand for. -/
def Obligations.SampleWordsDecode : Prop :=
  decode 0x0000000000000000 = .ok (.nop 0) ∧
  decode 0x1000380800000000 = .ok (.setgl (some .dcc) 3 128 1 0 0) ∧
  decode 0x2000C00000000003 = .ok (.setga (some .dcc) 12 0 1 1) ∧
  decode 0x3000300000000000 = .ok (.termgl (some .dcc) 3 0) ∧
  decode 0x4414400000000000 = .ok (.termga (some .mm) 324 0) ∧
  decode 0x5000000000000000 = .ok (.smenter (some .dcc) 0) ∧
  decode 0x6000000000000000 = .ok (.smexit 0) ∧
  decode 0x7000000000001D06 = .ok (.smwrite 0 29 6) ∧
  decode 0x8000000000001D00 = .ok (.smread 0 29 0) ∧
  decode 0x90000100000186A0 = .ok (.cfgwr 0 1 0 100000) ∧
  decode 0xA000020000000000 = .ok (.rdreg 0 2 0 0)

/-- 30_encoding.md Tables R106 and R107: every event word is the sum of its fields at their places, so every bit outside
them is zero, and the reasons are numbered 1 to 13. -/
def Obligations.EventWordsHaveTheirFormats : Prop :=
  (∀ r h, (Event.invalid r h).word.toNat = 1 * 2 ^ 60 + r.code.toNat * 2 ^ 56 + h.toNat * 2 ^ 36) ∧
  (∀ p a c, (Event.timingMiss p a c).word.toNat =
    2 * 2 ^ 60 + p.toNat * 2 ^ 58 + a.toNat * 2 ^ 44 + c.code.toNat * 2 ^ 42) ∧
  (∀ p st op cv v, (Event.smResult p st op cv v).word.toNat =
    3 * 2 ^ 60 + (protoCode p).toNat * 2 ^ 58 + st.code.toNat * 2 ^ 56 + (if op = .read then 1 else 0) * 2 ^ 55
      + cv.toNat * 2 ^ 8 + v.toNat) ∧
  (∀ i v, (Event.s88 i v).word.toNat = 4 * 2 ^ 60 + i.toNat * 2 ^ 16 + v.toNat) ∧
  (∀ c, (Event.driverFault c).word.toNat = 5 * 2 ^ 60 + c.code.toNat * 2 ^ 42) ∧
  (∀ r v, (Event.reg r v).word.toNat = 6 * 2 ^ 60 + r.toNat * 2 ^ 40 + v.toNat) ∧
  [Reason.badOpcode, .halted, .reservedNonzero, .badProto, .badAddr, .badSpeed, .badFunc, .noSlot, .badMode,
    .smUnsupported, .smBusy, .badCv, .badReg].map (fun r => r.code.toNat) = [1, 2, 3, 4, 5, 6, 7, 8, 9, 10, 11, 12, 13] ∧
  [TxClass.gl, .ga, .sm, .s88].map (fun c => c.code.toNat) = [0, 1, 2, 3] ∧
  [SmStatus.ok, .failed, .aborted].map (fun c => c.code.toNat) = [0, 1, 2]

/-- A step in which the HOST presents a word runs the decoded command on the state the offer leaves, or rejects the word
with BAD_OPCODE (20_memory.md R70, 30_encoding.md R104); taking an offer touches the model's own fields only. -/
def Obligations.StepRunsDecodedCommand : Prop :=
  (∀ (s : State) w i, nextOffer s = .host w → decode w = .ok i → step s = exec i (takeOffer s)) ∧
  (∀ (s : State) w, nextOffer s = .host w → (∀ i, decode w ≠ .ok i) → step s = .next (reject params .badOpcode w (takeOffer s))) ∧
  (∀ (s : State) a rest, s.agenda = a :: rest → nextOffer s = a ∧ takeOffer s = { s with agenda := rest, out := [] }) ∧
  (∀ s : State, s.agenda = [] →
    nextOffer s = Config.environment s.drawn ∧ takeOffer s = { s with drawn := s.drawn + 1, out := [] }) ∧
  ∀ (s : State) n w, nextOffer (s.withFetchWord n w) = .host (BitVec.ofNat 64 (w % 2 ^ n))

/-- The canonical form (notes/assumptions/10.md): two arenas in it that read alike at every key are equal. -/
def Obligations.CanonicalArenasReadingAlikeAreEqual : Prop :=
  ∀ m n : Arena, m.wf = true → n.wf = true → (∀ k, m.read k = n.read k) → m = n

/-! ### The host commands: completion, result and frame -/

/-- 40_registry_commands.md R131. -/
def Obligations.NopDoesNothing : Prop :=
  encode (.nop 0) = 0x0000000000000000 ∧
  (∀ s : State, exec (.nop 0) s = .next s) ∧
  ∀ z (s : State), z ≠ 0 → exec (.nop z) s = .next (reject params .reservedNonzero (encode (.nop z)) s)

/-- 40_registry_commands.md R134, R135 (with R133, R136): an accepted SETGL or SETGA makes its slot valid and dirty with
the payload given; a new slot's `eligible_at` is raised to NOW, a valid slot's is kept; nothing else changes. -/
def Obligations.SetCommandsWriteOneSlot : Prop :=
  (∀ (s : State) p a sp d f, s.mode ≠ .halted → inRange params p .gl a.toNat → sp.toNat ≤ params.speedMax p →
    f.toNat >>> (params.funcMax p + 1) = 0 →
    ∃ t, exec (.setgl (some p) a sp d 0 f) s = .next t ∧ OnlySlotChanged s t ⟨p, .gl, a⟩ ∧
      (t.slot ⟨p, .gl, a⟩).valid = true ∧ (t.slot ⟨p, .gl, a⟩).dirty = true ∧
      (t.slot ⟨p, .gl, a⟩).payload = .gl sp d f ∧
      ((s.slot ⟨p, .gl, a⟩).valid = true → (t.slot ⟨p, .gl, a⟩).eligibleAt = (s.slot ⟨p, .gl, a⟩).eligibleAt) ∧
      ((s.slot ⟨p, .gl, a⟩).valid = false →
        (t.slot ⟨p, .gl, a⟩).eligibleAt = max (s.slot ⟨p, .gl, a⟩).eligibleAt s.now)) ∧
  (∀ (s : State) p a po ac, s.mode ≠ .halted → inRange params p .ga a.toNat →
    ∃ t, exec (.setga (some p) a 0 po ac) s = .next t ∧ OnlySlotChanged s t ⟨p, .ga, a⟩ ∧
      (t.slot ⟨p, .ga, a⟩).valid = true ∧ (t.slot ⟨p, .ga, a⟩).dirty = true ∧
      (t.slot ⟨p, .ga, a⟩).payload = .ga po ac ∧
      ((s.slot ⟨p, .ga, a⟩).valid = true → (t.slot ⟨p, .ga, a⟩).eligibleAt = (s.slot ⟨p, .ga, a⟩).eligibleAt) ∧
      ((s.slot ⟨p, .ga, a⟩).valid = false →
        (t.slot ⟨p, .ga, a⟩).eligibleAt = max (s.slot ⟨p, .ga, a⟩).eligibleAt s.now))

/-- 40_registry_commands.md R137, R138, R139: TERMGL and TERMGA clear a valid slot and keep its `eligible_at`; a slot that
is not valid is reported with NO_SLOT. -/
def Obligations.TermCommandsRemoveOneSlot : Prop :=
  (∀ (s : State) p a, s.mode ≠ .halted → inRange params p .gl a.toNat → (s.slot ⟨p, .gl, a⟩).valid = true →
    ∃ t, exec (.termgl (some p) a 0) s = .next t ∧ OnlySlotChanged s t ⟨p, .gl, a⟩ ∧
      t.slot ⟨p, .gl, a⟩ = ⟨false, false, (s.slot ⟨p, .gl, a⟩).eligibleAt, .gl 0 0 0⟩) ∧
  (∀ (s : State) p a, s.mode ≠ .halted → inRange params p .ga a.toNat → (s.slot ⟨p, .ga, a⟩).valid = true →
    ∃ t, exec (.termga (some p) a 0) s = .next t ∧ OnlySlotChanged s t ⟨p, .ga, a⟩ ∧
      t.slot ⟨p, .ga, a⟩ = ⟨false, false, (s.slot ⟨p, .ga, a⟩).eligibleAt, .ga 0 0⟩) ∧
  (∀ (s : State) p a, s.mode ≠ .halted → inRange params p .gl a.toNat → (s.slot ⟨p, .gl, a⟩).valid = false →
    exec (.termgl (some p) a 0) s = .next (reject params .noSlot (encode (.termgl (some p) a 0)) s)) ∧
  (∀ (s : State) p a, s.mode ≠ .halted → inRange params p .ga a.toNat → (s.slot ⟨p, .ga, a⟩).valid = false →
    exec (.termga (some p) a 0) s = .next (reject params .noSlot (encode (.termga (some p) a 0)) s))

/-- 43_service_mode.md R221: SMENTER records the request where the protocol has a service mode, and no MODE changes. The
support bit is a parameter the spec leaves open: the second part says the same of every configuration. -/
def Obligations.SmenterRecordsTheRequest : Prop :=
  (∀ (s : State) p, s.mode ≠ .halted → s.target = false →
    exec (.smenter (some p) 0) s =
      .next (if params.smSupport p = true then { s with target := true, targetProto := p }
        else reject params .smUnsupported (encode (.smenter (some p) 0)) s)) ∧
  (∀ P (s : State) p, s.mode ≠ .halted → s.target = false → P.smSupport p = true →
    execWith P (.smenter (some p) 0) s = { s with target := true, targetProto := p }) ∧
  (∀ i (s : State), exec i s = .next (execWith params i s)) ∧
  ∀ (s : State) p, s.mode ≠ .halted → s.target = true →
    exec (.smenter (some p) 0) s = .next (reject params .badMode (encode (.smenter (some p) 0)) s)

/-- 43_service_mode.md R222: SMEXIT withdraws the request, `TARGET_PROTO` and MODE staying as they are. -/
def Obligations.SmexitWithdrawsTheRequest : Prop :=
  (∀ s : State, s.mode ≠ .halted → s.target = true → exec (.smexit 0) s = .next { s with target := false }) ∧
  ∀ s : State, s.mode ≠ .halted → s.target = false →
    exec (.smexit 0) s = .next (reject params .badMode (encode (.smexit 0)) s)

/-- 43_service_mode.md R223, R224: SMWRITE and SMREAD create the session, in SERVICE with no exit pending and no session
running, for a CV in range; otherwise BAD_MODE, SM_BUSY or BAD_CV, in this order. -/
def Obligations.SessionCommandsCreateTheSession : Prop :=
  (∀ (s : State) cv v, s.mode = .service → s.target = true → s.sm.op = .none → 1 ≤ cv.toNat → cv.toNat ≤ params.cvMax s.sm.proto →
    exec (.smwrite 0 cv v) s =
      .next { s with sm := { s.sm with op := .write, cv := cv, val := v, retry := 0, state := .selectop } }) ∧
  (∀ (s : State) cv, s.mode = .service → s.target = true → s.sm.op = .none → 1 ≤ cv.toNat → cv.toNat ≤ params.cvMax s.sm.proto →
    exec (.smread 0 cv 0) s =
      .next { s with sm := { s.sm with op := .read, cv := cv, val := 0, retry := 0, state := .selectop } }) ∧
  (∀ (s : State) cv v i, (i = .smwrite 0 cv v ∨ i = .smread 0 cv 0) → s.mode ≠ .halted →
    (s.mode = .normal ∨ s.target = false) → exec i s = .next (reject params .badMode (encode i) s)) ∧
  (∀ (s : State) cv v i, (i = .smwrite 0 cv v ∨ i = .smread 0 cv 0) → s.mode = .service → s.target = true → s.sm.op ≠ .none →
    exec i s = .next (reject params .smBusy (encode i) s)) ∧
  ∀ (s : State) cv v i, (i = .smwrite 0 cv v ∨ i = .smread 0 cv 0) → s.mode = .service → s.target = true → s.sm.op = .none →
    (cv.toNat = 0 ∨ params.cvMax s.sm.proto < cv.toNat) → exec i s = .next (reject params .badCv (encode i) s)

/-- 44_config_status.md R271: CFGWR replaces the whole register; a read-only or reserved index is BAD_REG, a reserved bit
of CTRL is RESERVED_NONZERO. -/
def Obligations.CfgwrWritesTheRegister : Prop :=
  (∀ (s : State) v, s.mode ≠ .halted → v &&& 0xFFFF00C0 = 0 → exec (.cfgwr 0 0 0 v) s = .next { s with ctrl := v }) ∧
  (∀ (s : State) v, s.mode ≠ .halted → exec (.cfgwr 0 1 0 v) s = .next { s with s88Maxint := v }) ∧
  (∀ (s : State) v, s.mode ≠ .halted → v &&& 0xFFFF00C0 ≠ 0 →
    exec (.cfgwr 0 0 0 v) s = .next (reject params .reservedNonzero (encode (.cfgwr 0 0 0 v)) s)) ∧
  (∀ (s : State) r v, s.mode ≠ .halted → 2 ≤ r.toNat →
    exec (.cfgwr 0 r 0 v) s = .next (reject params .badReg (encode (.cfgwr 0 r 0 v)) s)) ∧
  (∀ (s : State) z r z2 v, s.mode ≠ .halted → (z ≠ 0 ∨ z2 ≠ 0) →
    exec (.cfgwr z r z2 v) s = .next (reject params .reservedNonzero (encode (.cfgwr z r z2 v)) s)) ∧
  ∀ (s : State) z r z2 v, s.mode = .halted →
    exec (.cfgwr z r z2 v) s = .next (reject params .halted (encode (.cfgwr z r z2 v)) s)

/-- 44_config_status.md R276 (with R275): RDREG, in every mode, queues the register's value in this state and changes
nothing else. -/
def Obligations.RdregReportsTheRegister : Prop :=
  (∀ (s : State) r, r.toNat ≤ 5 → ∃ v, exec (.rdreg 0 r 0 0) s = .next (emit params (.reg r v) s) ∧
    (r = 0 → v = s.ctrl &&& 0x0000FF3F) ∧ (r = 1 → v = s.s88Maxint) ∧ (r = 2 → v = s.statusWord) ∧
    (r = 3 → v.toNat = s.pktCnt.toNat) ∧ (r = 4 → v.toNat = s.now % 2 ^ 32) ∧
    (r = 5 → v.toNat = s.now / 2 ^ 32 % 2 ^ 32)) ∧
  ∀ (s : State) r, 6 ≤ r.toNat → exec (.rdreg 0 r 0 0) s = .next (reject params .badReg (encode (.rdreg 0 r 0 0)) s)

/-- 10_state.md R35: STATUS is the sum of its fields at the places of Table R35, reads 0 after reset, and no CFGWR writes
it. That BUSY is the presence of the transaction in flight is the model's reading of 10_state.md R29
(notes/assumptions/6.md). -/
def Obligations.StatusWordIsTheView : Prop :=
  (∀ s : State, s.statusWord.toNat =
    s.mode.code.toNat + s.busy.toNat * 2 ^ 2 + s.target.toNat * 2 ^ 3 + (if s.sm.op = .none then 0 else 1) * 2 ^ 4
      + s.sm.state.code.toNat * 2 ^ 5 + s.evovf.toNat * 2 ^ 8 + (protoCode s.sm.proto).toNat * 2 ^ 9) ∧
  (∀ s : State, s.busy = true ↔ s.infl ≠ none) ∧
  [Mode.normal, .service, .halted].map (fun m => m.code.toNat) = [0, 1, 2] ∧
  [SmState.idle, .selectop, .transmit, .sample, .retry, .done, .failed].map (fun m => m.code.toNat)
    = [0, 1, 2, 3, 4, 5, 6] ∧
  State.reset.statusWord = 0 ∧
  ∀ (s : State) v, s.mode ≠ .halted → exec (.cfgwr 0 2 0 v) s = .next (reject params .badReg (encode (.cfgwr 0 2 0 v)) s)

/-- 40_registry_commands.md R132, 60_exceptions.md R312: for every 64-bit word and every state, the HOST's step rejects
with the reason of the first check of the list that fails, or, when none fails, applies the command's rule. -/
def Obligations.RejectionIsTheFirstFailingCheck : Prop :=
  ∀ (s : State) w,
    (∀ r, firstFailing (wordChecks params w s) = some r →
      step (s.offering (.host w)) = .next (reject params r w { s with out := [] })) ∧
    (firstFailing (wordChecks params w s) = none →
      ∃ i t, decode w = .ok i ∧ commandRule params i { s with out := [] } = .ok t ∧
        step (s.offering (.host w)) = .next t)

/-- 60_exceptions.md R311, R313: a rejection queues EV_INVALID with the reason and the upper 20 bits of the word, or sets
`EVOVF`, and changes nothing else. -/
def Obligations.RejectionOnlyReports : Prop :=
  ∀ (P : Params) r w (s : State), ∃ e : Word,
    e.toNat = 2 ^ 60 + r.code.toNat * 2 ^ 56 + w.toNat / 2 ^ 44 * 2 ^ 36 ∧
    ((∀ d, P.evqDepth = some d → s.evq.length < d) → reject P r w s = { s with evq := s.evq ++ [e] }) ∧
    ∀ d, P.evqDepth = some d → d ≤ s.evq.length → reject P r w s = { s with evovf := true }

/-- 20_memory.md R70, 40_registry_commands.md R130, 60_exceptions.md Table R344: no command changes the transmission, the
pauses, MODE, NOW, the counters, the S88 frame or `SM_PROTO`; a registry command changes no session register, no
request and no configuration register. -/
def Obligations.CommandsLeaveTheTransmissionAlone : Prop :=
  ∀ i (s : State), ∃ t, exec i s = .next t ∧ t.infl = s.infl ∧ t.driver = s.driver ∧ t.pauseUntil = s.pauseUntil ∧
    t.mode = s.mode ∧ t.now = s.now ∧ t.pktCnt = s.pktCnt ∧ t.s88Last = s.s88Last ∧ t.s88Cur = s.s88Cur ∧
    t.s88Prev = s.s88Prev ∧ t.sm.proto = s.sm.proto ∧ t.out = s.out ∧ t.agenda = s.agenda ∧ t.drawn = s.drawn ∧
    ((opcodeOf i).toNat ≤ 4 → t = { s with arena := t.arena, evq := t.evq, evovf := t.evovf }) ∧
    (5 ≤ (opcodeOf i).toNat → t.arena = s.arena)

/-! ### Events, faults, modes, reset -/

/-- 60_exceptions.md R326, R327: events join at the tail while there is room and are dropped with `EVOVF` set otherwise;
POP gives the oldest word to the host and changes nothing else. The labels `popped` and `notEnabled`, and so the last clause,
are the model's choice (notes/assumptions/2.md, notes/assumptions/8.md). -/
def Obligations.EventQueueIsFirstInFirstOut : Prop :=
  (∀ (P : Params) e (s : State), (∀ d, P.evqDepth = some d → s.evq.length < d) →
    emit P e s = { s with evq := s.evq ++ [e.word] }) ∧
  (∀ (P : Params) e (s : State) d, P.evqDepth = some d → d ≤ s.evq.length → emit P e s = { s with evovf := true }) ∧
  (∀ (s : State) w rest, s.evq = w :: rest → step (s.offering .pop) = .next { s with evq := rest, out := [.popped w] }) ∧
  ∀ s : State, s.evq = [] → step (s.offering .pop) = .next { s with out := [.notEnabled] }

/-- 60_exceptions.md R321: a completion with status FAULT, of any transaction, puts the PSB in HALTED and queues
EV_DRIVER_FAULT with the transaction's class; the slots' contents, the request, the session, the configuration and the
frame stay. The packet count goes on for a packet (41_scheduler.md R160, 43_service_mode.md R234), stays for a sample (R237)
and is cleared for a poll (45_s88_mfx.md R294); only a registry packet moves an `eligible_at` or a pause. -/
def Obligations.FaultHalts : Prop :=
  ∀ (s : State) (d : Draw) f, s.infl = some f → dueTime s f ≤ s.now → d.status = .fault →
    ∃ t, step (s.offering (.driver d)) = .next t ∧
      t.evq = (emit params (.driverFault (flightClass f)) s).evq ∧
      t.evovf = (emit params (.driverFault (flightClass f)) s).evovf ∧
      (∀ k, (t.slot k).valid = (s.slot k).valid ∧ (t.slot k).dirty = (s.slot k).dirty ∧
        (t.slot k).payload = (s.slot k).payload) ∧
      (match f with
        | .cmd key _ gap pause _ =>
          (t.slot key).eligibleAt = s.now + gap ∧ (∀ k, k ≠ key → (t.slot k).eligibleAt = (s.slot k).eligibleAt) ∧
          t.pauseUntil.get key.proto = max (s.pauseUntil.get key.proto) (s.now + pause) ∧
          (∀ q, q ≠ key.proto → t.pauseUntil.get q = s.pauseUntil.get q) ∧
          t.pktCnt.toNat = min (s.pktCnt.toNat + 1) 65535 ∧ t.s88Last = s.now
        | .smpkt _ =>
          t.arena = s.arena ∧ t.pauseUntil = s.pauseUntil ∧
          t.pktCnt.toNat = min (s.pktCnt.toNat + 1) 65535 ∧ t.s88Last = s.now
        | .ack _ => t.arena = s.arena ∧ t.pauseUntil = s.pauseUntil ∧ t.pktCnt = s.pktCnt ∧ t.s88Last = s.s88Last
        | .s88 _ => t.arena = s.arena ∧ t.pauseUntil = s.pauseUntil ∧ t.pktCnt = 0 ∧ t.s88Last = s.now) ∧
      t = { s with
        mode := .halted, infl := none, driver := none, arena := t.arena, pauseUntil := t.pauseUntil, pktCnt := t.pktCnt,
        s88Last := t.s88Last, evq := t.evq, evovf := t.evovf, out := [] }

/-- 60_exceptions.md R322: in HALTED no PSB step is enabled and the DRIVER has none, the CLOCK is free, and every command
but NOP and RDREG is rejected with reason HALTED. That a step not enabled sets the label `notEnabled` and nothing else is
the model's choice (notes/assumptions/2.md). -/
def Obligations.HaltedAcceptsOnlyNopAndRdreg : Prop :=
  (∀ s : State, s.mode = .halted → step (s.offering .psb) = .next { s with out := [.notEnabled] }) ∧
  (∀ (s : State) d, s.mode = .halted → s.infl = none →
    step (s.offering (.driver d)) = .next { s with out := [.notEnabled] }) ∧
  (∀ (s : State) dt, s.mode = .halted → 0 < dt → step (s.offering (.clock dt)) = .next { s with now := s.now + dt, out := [] }) ∧
  (∀ (s : State) i, s.mode = .halted → (opcodeOf i).toNat ≠ 0 → (opcodeOf i).toNat ≠ 10 →
    exec i s = .next (reject params .halted (encode i) s))

/-- 60_exceptions.md R322, R323: from HALTED with nothing in flight, a step that is no reset stays in HALTED and changes
only NOW and the event queue (and the model's own fields). -/
def Obligations.OnlyResetLeavesHalted : Prop :=
  ∀ (s : State) t, s.mode = .halted → s.infl = none → nextOffer s ≠ .reset → step s = .next t →
    t = { s with now := t.now, evq := t.evq, evovf := t.evovf, out := t.out, agenda := t.agenda, drawn := t.drawn }

/-- 10_state.md R27, 60_exceptions.md R320, R323: MODE changes only in the mode switch at a clean boundary, in a completion
with status FAULT, and in reset. -/
def Obligations.ModeChangesOnlyBySwitchHaltOrReset : Prop :=
  ∀ (s : State) t, step s = .next t → t.mode ≠ s.mode →
    (nextOffer s = .psb ∧ s.infl = none ∧ s.mode = .normal ∧ s.target = true ∧ t.mode = .service) ∨
    (nextOffer s = .psb ∧ s.infl = none ∧ s.mode = .service ∧ s.target = false ∧ t.mode = .normal) ∨
    (∃ d f, nextOffer s = .driver d ∧ s.infl = some f ∧ d.status = .fault ∧ t.mode = .halted) ∨
    (nextOffer s = .reset ∧ t.mode = .normal)

/-- 10_state.md R47, 70_reset_and_hazards.md R350, R351: the values after reset, the reset input from any state, and the
silence until the first command. That the environment's offers to come (`agenda`, `drawn`) survive a reset is the model's
choice (notes/assumptions/1.md). -/
def Obligations.ResetLeavesTheTableValues : Prop :=
  State.reset.now = 0 ∧ (∀ k, State.reset.slot k = ⟨false, false, 0, Payload.zero k.kind⟩) ∧
  State.reset.pauseUntil = ⟨0, 0, 0⟩ ∧ State.reset.mode = .normal ∧ State.reset.target = false ∧
  State.reset.targetProto = .dcc ∧ State.reset.infl = none ∧ State.reset.pktCnt = 0 ∧ State.reset.s88Last = 0 ∧
  State.reset.s88Cur = 0 ∧ State.reset.s88Prev = 0 ∧
  State.reset.sm = ⟨.dcc, .idle, .none, 0, 0, .write, 0, 0, 0, 0, 0⟩ ∧ State.reset.ctrl = 0 ∧
  State.reset.s88Maxint = 0 ∧ State.reset.evq = [] ∧ State.reset.evovf = false ∧
  (∀ s : State, step (s.offering .reset) = .next { State.reset with agenda := s.agenda, drawn := s.drawn }) ∧
  (∀ t, psbRuleAt params State.reset t = none) ∧ wake State.reset = none

/-! ### The scheduler -/

/-- 41_scheduler.md R152: `Cand(t)` is the set of keys with the three conditions of `Elig`. -/
def Obligations.CandidatesAreTheEligibleSlots : Prop :=
  ∀ (s : State) t key, key ∈ cand s t ↔ EligibleAt s t key

/-- 41_scheduler.md R153: `best(C)` is the member of C with the least sort key; it exists when C is not empty. -/
def Obligations.BestHasTheLeastSortKey : Prop :=
  ∀ (s : State) C, (C ≠ [] → ∃ k, best s C = some k) ∧
    ∀ k, best s C = some k → k ∈ C ∧ ∀ j ∈ C, j ≠ k → Precedes s k j

/-- 41_scheduler.md R156, 43_service_mode.md R230: at an output opportunity the PSB takes the first enabled step of the
list; while a transaction is in flight and in HALTED it takes none. -/
def Obligations.PsbTakesTheFirstEnabledStep : Prop :=
  (∀ (s : State) t, (s.infl ≠ none ∨ s.mode = .halted) → psbRuleAt params s t = none) ∧
  (∀ (s : State) t, s.infl = none → s.mode = .normal → s.target = true → psbRuleAt params s t = some .switchIn) ∧
  (∀ (s : State) t, s.infl = none → s.mode = .service → s.target = false → psbRuleAt params s t = some .switchOut) ∧
  (∀ (s : State) t, s.infl = none → s.mode ≠ .halted → ¬switchPending s → s88Due params s t = true → s.sm.state ≠ .sample →
    psbRuleAt params s t = some .s88Start) ∧
  (∀ (s : State) t, s.infl = none → s.mode = .normal → s.target = false → s88Due params s t = false →
    psbRuleAt params s t = (best s (cand s t)).map .schedSelect) ∧
  ∀ (s : State) t, s.infl = none → s.mode = .service → s.target = true →
    (s88Due params s t = false ∨ s.sm.state = .sample) →
    psbRuleAt params s t =
      match s.sm.state with
      | .idle => none
      | .selectop => some .selectOp
      | .transmit => some .transmit
      | .sample => if s.sm.deadline ≤ t then some .sample else none
      | .retry => some .retry
      | .done => some .done
      | .failed => some .failed

/-- 41_scheduler.md R157 (with 42_encoder_mux.md R200, R202, 60_exceptions.md R330, R338): SCHED_SELECT starts the packet
of the eligible slot with the least sort key. -/
def Obligations.SchedSelectStartsTheBestPacket : Prop :=
  ∀ (s : State) key, s.mode = .normal → s.target = false → s.infl = none → s88Due params s s.now = false →
    EligibleAt s s.now key → (∀ j, EligibleAt s s.now j → j ≠ key → Precedes s key j) →
    ∃ t, step (s.offering .psb) = .next t ∧
      t.slot key = { s.slot key with dirty := false } ∧ (∀ k, k ≠ key → t.slot k = s.slot k) ∧
      (s.arena.wf = true → t.arena.wf = true) ∧
      t = { s with
        arena := t.arena
        infl := some (.cmd key (s.slot key).dirty (gapOf key.proto)
          (params.pauseUs key.proto key.kind (s.slot key).payload) s.now)
        driver := some (.tx
          (params.enc key.proto key.kind
            (if key.proto = .mm ∧ s.ctrl.getLsbD 0 = true then (key.addr.toNat : Int) - 4 else key.addr.toNat)
            (s.slot key).payload).bits
          ⟨key.proto, classOfKind key.kind, s.ctrl.extractLsb' 8 8⟩)
        out := if (match key.kind with | .gl => s.ctrl.getLsbD 4 | .ga => s.ctrl.getLsbD 3) = true
          then [.trig (classOfKind key.kind)] else [] }

/-- 41_scheduler.md R152, R153, 10_state.md R30: whatever step starts a registry packet, its slot is valid, past its own gap
and past its protocol's pause, in NORMAL with no switch pending, and precedes every other eligible slot. -/
def Obligations.PacketsStartOnlyWhenEligibleAndFirst : Prop :=
  ∀ (s : State) key, StartsPacket key s →
    EligibleAt s s.now key ∧ s.mode = .normal ∧ s.target = false ∧
      (∀ j, EligibleAt s s.now j → j ≠ key → Precedes s key j) ∧ (nextState s).now = s.now

/-- 41_scheduler.md R160 (with R161, R163 to R166): the completion of a registry packet, for every status. -/
def Obligations.SchedDoneSetsTheTimers : Prop :=
  ∀ (s : State) (d : Draw) key wasDirty gap pause t0, s.infl = some (.cmd key wasDirty gap pause t0) → t0 ≤ s.now →
    ∃ t, step (s.offering (.driver d)) = .next t ∧
      (t.slot key).eligibleAt = s.now + gap ∧ (t.slot key).valid = (s.slot key).valid ∧
      (t.slot key).payload = (s.slot key).payload ∧
      (t.slot key).dirty = (if d.status = .timingMiss ∧ (s.slot key).valid = true then (s.slot key).dirty || wasDirty
        else (s.slot key).dirty) ∧
      (∀ k, k ≠ key → t.slot k = s.slot k) ∧ (s.arena.wf = true → t.arena.wf = true) ∧
      t.pauseUntil.get key.proto = max (s.pauseUntil.get key.proto) (s.now + pause) ∧
      (∀ q, q ≠ key.proto → t.pauseUntil.get q = s.pauseUntil.get q) ∧
      t.pktCnt.toNat = min (s.pktCnt.toNat + 1) 65535 ∧
      t.mode = (if d.status = .fault then .halted else s.mode) ∧
      (d.status = .ok → t.evq = s.evq ∧ t.evovf = s.evovf) ∧
      (d.status = .timingMiss →
        t.evq = (emit params (.timingMiss (protoCode key.proto) key.addr (classOfKind key.kind)) s).evq ∧
        t.evovf = (emit params (.timingMiss (protoCode key.proto) key.addr (classOfKind key.kind)) s).evovf) ∧
      (d.status = .fault →
        t.evq = (emit params (.driverFault (classOfKind key.kind)) s).evq ∧
        t.evovf = (emit params (.driverFault (classOfKind key.kind)) s).evovf) ∧
      t = { s with
        arena := t.arena, infl := none, driver := none, pauseUntil := t.pauseUntil, pktCnt := t.pktCnt,
        s88Last := s.now, mode := t.mode, evq := t.evq, evovf := t.evovf, out := [] }

/-- 41_scheduler.md R175: in a state with nothing in flight and no PSB step enabled, W is the least time at which one
would be enabled if only NOW changed, once enabled it stays so, and W is the minimum of the closed form. -/
def Obligations.WakeTimeIsTheLeastEnabledTime : Prop :=
  (∀ s : State, s.infl = none → psbRule params s = none → ∀ t, s.now ≤ t →
    ((psbRuleAt params s t).isSome = true ↔ ∃ W, wake s = some W ∧ W ≤ t)) ∧
  ∀ (s : State) W, wake s = some W ↔ WakeTime s W ∧ ∀ x, WakeTime s x → W ≤ x

/-- 41_scheduler.md R176, R185: while a transaction is in flight the CLOCK may advance NOW to any later time; otherwise
exactly to the times before which no PSB step is enabled. So the output never idles while work is eligible. -/
def Obligations.TimePassesOnlyWhileNothingIsEnabled : Prop :=
  (∀ (s : State) dt, 0 < dt → s.infl ≠ none → step (s.offering (.clock dt)) = .next { s with now := s.now + dt, out := [] }) ∧
  (∀ (s : State) dt, 0 < dt → s.infl = none →
    (step (s.offering (.clock dt)) = .next { s with now := s.now + dt, out := [] } ↔
      ∀ u, s.now ≤ u → u < s.now + dt → psbRuleAt params s u = none)) ∧
  ∀ (s : State) t, step s = .next t → t.now ≠ s.now → nextOffer s ≠ .reset →
    ∃ dt, nextOffer s = .clock dt ∧ 0 < dt ∧ t.now = s.now + dt

/-- 41_scheduler.md R184: from any sound state, on any run without reset, a packet to a key starts no earlier than the
completion of an earlier packet to the key plus the protocol's gap. -/
def Obligations.GapIsKept : Prop :=
  ∀ (s : State) n key, Inv params s → ResetFree n s → CompletesPacket key s → StartsPacket key (after n s) →
    s.now + gapOf key.proto ≤ (after n s).now

/-- 20_memory.md R86, R87: the wire address is exact and signed; with an encoder injective on it, slot addresses 1 to 4
with the correction do not alias 321 to 324 without it, and address a ≥ 5 encodes as a − 4 encodes without it. -/
def Obligations.MmCorrectionDoesNotAlias : Prop :=
  ∀ P : Params, P.mmShift = 4 → P.MmInjective →
    (∀ k a, wireAddr P true ⟨.mm, k, a⟩ = (a.toNat : Int) - 4 ∧ wireAddr P false ⟨.mm, k, a⟩ = a.toNat) ∧
    (∀ c k a, wireAddr P c ⟨.dcc, k, a⟩ = a.toNat ∧ wireAddr P c ⟨.mfx, k, a⟩ = a.toNat) ∧
    (∀ k (a b : BitVec 14) pl, 1 ≤ a.toNat → a.toNat ≤ 4 → 321 ≤ b.toNat → b.toNat ≤ 324 →
      (mux P true ⟨.mm, k, a⟩ pl).bits ≠ (mux P false ⟨.mm, k, b⟩ pl).bits) ∧
    (∀ k (a b : BitVec 14) pl, 1 ≤ a.toNat → 1 ≤ b.toNat → a ≠ b →
      (mux P true ⟨.mm, k, a⟩ pl).bits ≠ (mux P true ⟨.mm, k, b⟩ pl).bits) ∧
    ∀ k (a b : BitVec 14) pl, 5 ≤ a.toNat → b.toNat + 4 = a.toNat →
      (mux P true ⟨.mm, k, a⟩ pl).bits = (mux P false ⟨.mm, k, b⟩ pl).bits

/-- 42_encoder_mux.md R197 (with R200, R204, 20_memory.md R86): with encoders that round-trip on every wire address a valid slot
address translates to, the packets `Mux` and `MuxSM` build for one protocol tell their commands apart: equal registry packets
have one kind, one wire address and one payload (so, under one setting of the correction, one slot), equal service-mode
packets one phase, one CV and one data, and no registry packet is a service-mode packet. That the valid addresses are Table
R83's, whatever the record's `ADDR_MAX`, is the model's choice (notes/assumptions/17.md). -/
def Obligations.DifferentCommandsNeverShareAPacket : Prop :=
  ∀ P : Params, P.mmShift = 4 → RoundTrip P →
    (∀ c c' (k j : SlotKey) pl pj, k.proto = j.proto → inRange P k.proto k.kind k.addr.toNat →
      inRange P j.proto j.kind j.addr.toNat → payloadLegal P k pl → payloadLegal P j pj →
      (mux P c k pl).bits = (mux P c' j pj).bits →
      k.kind = j.kind ∧ pl = pj ∧ (c = c' → k = j) ∧
      (if k.proto = .mm ∧ c = true then (k.addr.toNat : Int) - 4 else k.addr.toNat) =
        (if j.proto = .mm ∧ c' = true then (j.addr.toNat : Int) - 4 else j.addr.toNat)) ∧
    (∀ p ph cv d ph' cv' d', encSmInput P p ph cv d → encSmInput P p ph' cv' d' →
      (muxSm P p ph cv d).bits = (muxSm P p ph' cv' d').bits → ph = ph' ∧ cv = cv' ∧ d = d') ∧
    ∀ c (k : SlotKey) pl ph cv d, inRange P k.proto k.kind k.addr.toNat → payloadLegal P k pl →
      encSmInput P k.proto ph cv d → (mux P c k pl).bits ≠ (muxSm P k.proto ph cv d).bits

/-! ### Service mode -/

/-- 43_service_mode.md R226: the switch into SERVICE writes MODE and `SM_PROTO` and nothing else. -/
def Obligations.SwitchIntoService : Prop :=
  ∀ s : State, s.infl = none → s.mode = .normal → s.target = true →
    step (s.offering .psb) =
      .next { s with mode := .service, sm := { s.sm with proto := s.targetProto }, out := [] }

/-- 43_service_mode.md R227, R228, R245: the switch out of SERVICE, first of all steps, reports a session as ABORTED,
destroys it whatever its state, and returns to NORMAL with the scheduler's own state untouched. -/
def Obligations.SwitchOutOfServiceAborts : Prop :=
  (∀ s : State, s.infl = none → s.mode = .service → s.target = false → s.sm.op ≠ .none →
    step (s.offering .psb) = .next (emit params (.smResult s.sm.proto .aborted s.sm.op s.sm.cv 0)
      { s with mode := .normal, sm := ⟨s.sm.proto, .idle, .none, 0, 0, .write, 0, 0, 0, 0, 0⟩, out := [] })) ∧
  ∀ s : State, s.infl = none → s.mode = .service → s.target = false → s.sm.op = .none →
    step (s.offering .psb) = .next
      { s with mode := .normal, sm := ⟨s.sm.proto, .idle, .none, 0, 0, .write, 0, 0, 0, 0, 0⟩, out := [] }

/-- 43_service_mode.md R232. -/
def Obligations.SelectOpStartsAnAttempt : Prop :=
  ∀ s : State, ServiceTurn s → s.sm.state = .selectop →
    step (s.offering .psb) = .next
      { s with
        sm := { s.sm with rep := 0, bit := 0, acc := 0, phase := if s.sm.op = .write then .write else .bitv,
                          state := .transmit }
        out := [] }

/-- 43_service_mode.md R233, 42_encoder_mux.md R204: TRANSMIT hands the DRIVER the packet of the phase; no session register
changes. -/
def Obligations.TransmitStartsThePacketOfThePhase : Prop :=
  ∀ s : State, ServiceTurn s → s.sm.state = .transmit →
    step (s.offering .psb) = .next
      { s with
        infl := some (.smpkt s.now)
        driver := some (.tx
          (params.encSm s.sm.proto s.sm.phase s.sm.cv
            (match s.sm.phase with
              | .write => .byte s.sm.val
              | .verify => .byte (if s.sm.op = .write then s.sm.val else s.sm.acc)
              | .bitv => .bit s.sm.bit 1)).bits
          ⟨s.sm.proto, .sm, s.ctrl.extractLsb' 8 8⟩)
        out := if s.ctrl.getLsbD 5 = true then [.trig .sm] else [] }

/-- 43_service_mode.md R234, R248, 60_exceptions.md R321: the completion of a service-mode packet, for every status. A FAULT is
counted too, and the sequencer stays where it is. -/
def Obligations.SmPacketDone : Prop :=
  ∀ (s : State) (d : Draw) t0, s.infl = some (.smpkt t0) → t0 ≤ s.now →
    ∃ t, step (s.offering (.driver d)) = .next t ∧ t.pktCnt.toNat = min (s.pktCnt.toNat + 1) 65535 ∧
      t.mode = (if d.status = .fault then .halted else s.mode) ∧
      (d.status = .ok → t.evq = s.evq ∧ t.evovf = s.evovf) ∧
      (d.status = .timingMiss →
        t.evq = (emit params (.timingMiss (protoCode s.sm.proto) 0 .sm) s).evq ∧
        t.evovf = (emit params (.timingMiss (protoCode s.sm.proto) 0 .sm) s).evovf) ∧
      (d.status = .fault →
        t.evq = (emit params (.driverFault .sm) s).evq ∧ t.evovf = (emit params (.driverFault .sm) s).evovf ∧
        t.sm = s.sm) ∧
      (d.status ≠ .fault →
        (s.sm.phase = .write → (s.sm.rep + 1).toNat = params.smWriteRepeat s.sm.proto →
          t.sm = { s.sm with rep := s.sm.rep + 1, phase := .verify }) ∧
        (s.sm.phase = .write → (s.sm.rep + 1).toNat ≠ params.smWriteRepeat s.sm.proto →
          t.sm = { s.sm with rep := s.sm.rep + 1 }) ∧
        (s.sm.phase ≠ .write →
          t.sm = { s.sm with deadline := s.now + params.smAckDelayUs s.sm.proto, state := .sample })) ∧
      t = { s with
        infl := none, driver := none, pktCnt := t.pktCnt, s88Last := s.now, mode := t.mode, sm := t.sm, evq := t.evq,
        evovf := t.evovf, out := [] }

/-- 43_service_mode.md R236, 60_exceptions.md R332, 45_s88_mfx.md R292: at its deadline the acknowledgement window opens, before
any poll. That the PSB's step before the deadline, not enabled, sets the label `notEnabled` and nothing else is the model's
choice (notes/assumptions/2.md). -/
def Obligations.SampleOpensTheWindowAtTheDeadline : Prop :=
  (∀ s : State, s.mode = .service → s.target = true → s.infl = none → s.sm.state = .sample → s.sm.deadline ≤ s.now →
    step (s.offering .psb) = .next
      { s with infl := some (.ack s.now), driver := some (.ack (params.smAckWindowUs s.sm.proto)), out := [] }) ∧
  ∀ s : State, s.mode = .service → s.target = true → s.infl = none → s.sm.state = .sample → s.now < s.sm.deadline →
    step (s.offering .psb) = .next { s with out := [.notEnabled] }

/-- 43_service_mode.md R237, 60_exceptions.md R331: the completion of a sample, not before its window has passed. That
an earlier completion, not enabled, sets the label `notEnabled` and nothing else is the model's choice
(notes/assumptions/2.md). -/
def Obligations.SmAckDone : Prop :=
  (∀ (s : State) (d : Draw) t0, s.infl = some (.ack t0) → t0 + params.smAckWindowUs s.sm.proto ≤ s.now → d.status = .ok →
    ∃ t, step (s.offering (.driver d)) = .next t ∧
      (s.sm.phase = .bitv →
        t.sm.state = .transmit ∧
        (∀ j, j < 8 → t.sm.acc.getLsbD j = if j = s.sm.bit.toNat then d.ack else s.sm.acc.getLsbD j) ∧
        (s.sm.bit.toNat < 7 → t.sm.bit.toNat = s.sm.bit.toNat + 1 ∧ t.sm.phase = .bitv) ∧
        (s.sm.bit.toNat = 7 → t.sm.bit = s.sm.bit ∧ t.sm.phase = .verify) ∧
        t.sm = { s.sm with acc := t.sm.acc, bit := t.sm.bit, phase := t.sm.phase, state := t.sm.state }) ∧
      (s.sm.phase = .verify → t.sm = { s.sm with state := if d.ack = true then .done else .retry }) ∧
      t = { s with infl := none, driver := none, sm := t.sm, out := [] }) ∧
  ∀ (s : State) (d : Draw) t0, s.infl = some (.ack t0) → s.now < t0 + params.smAckWindowUs s.sm.proto →
    step (s.offering (.driver d)) = .next { s with out := [.notEnabled] }

/-- 43_service_mode.md R239. -/
def Obligations.RetryRepeatsOrFails : Prop :=
  (∀ s : State, ServiceTurn s → s.sm.state = .retry → s.sm.retry.toNat < params.smRetryMax s.sm.proto →
    ∃ t, step (s.offering .psb) = .next t ∧ t.sm.retry.toNat = s.sm.retry.toNat + 1 ∧
      t = { s with sm := { s.sm with retry := t.sm.retry, state := .selectop }, out := [] }) ∧
  ∀ s : State, ServiceTurn s → s.sm.state = .retry → params.smRetryMax s.sm.proto ≤ s.sm.retry.toNat →
    step (s.offering .psb) = .next { s with sm := { s.sm with state := .failed }, out := [] }

/-- 43_service_mode.md R241, R242, R245: DONE and FAILED report the operation and destroy the session, `SM_PROTO` and MODE
kept. -/
def Obligations.DoneAndFailedReportTheOperation : Prop :=
  (∀ s : State, ServiceTurn s → s.sm.state = .done →
    step (s.offering .psb) = .next (emit params
      (.smResult s.sm.proto .ok s.sm.op s.sm.cv (if s.sm.op = .write then s.sm.val else s.sm.acc))
      { s with sm := ⟨s.sm.proto, .idle, .none, 0, 0, .write, 0, 0, 0, 0, 0⟩, out := [] })) ∧
  ∀ s : State, ServiceTurn s → s.sm.state = .failed →
    step (s.offering .psb) = .next (emit params (.smResult s.sm.proto .failed s.sm.op s.sm.cv 0)
      { s with sm := ⟨s.sm.proto, .idle, .none, 0, 0, .write, 0, 0, 0, 0, 0⟩, out := [] })

/-- 43_service_mode.md R249: in SERVICE with a session, no step of the PSB and no completion of a service-mode transaction
touches a slot, a pause, the request, CTRL or the frame. -/
def Obligations.SequencerLeavesTheSchedulerAlone : Prop :=
  ∀ (s : State) t, s.mode = .service → step s = .next t →
    (nextOffer s = .psb ∨ (∃ d t0, nextOffer s = .driver d ∧ (s.infl = some (.smpkt t0) ∨ s.infl = some (.ack t0)))) →
    t.arena = s.arena ∧ t.pauseUntil = s.pauseUntil ∧ t.target = s.target ∧ t.targetProto = s.targetProto ∧
      t.ctrl = s.ctrl ∧ t.s88Maxint = s.s88Maxint ∧ t.s88Cur = s.s88Cur ∧ t.s88Prev = s.s88Prev ∧ t.now = s.now

/-- 43_service_mode.md R235, R247 (a write whose verify is acknowledged; S88 off, no HOST step in between, and every packet
completed at the time it starts): SELECTOP, `SM_WRITE_REPEAT` write packets,
one verify packet, one sample at the deadline over the whole window, then EV_SM_RESULT with status OK. -/
def Obligations.AcknowledgedWriteEndsOk : Prop :=
  ∀ (s : State) rest, s.mode = .service → s.target = true → s.infl = none → s.s88En = false → s.sm.op = .write →
    s.sm.state = .selectop →
    s.agenda = writeAttempt (params.smWriteRepeat s.sm.proto) (params.smAckDelayUs s.sm.proto)
      (params.smAckWindowUs s.sm.proto) ++ rest →
    (∀ m, m < params.smWriteRepeat s.sm.proto →
      (after (2 * m + 2) s).driver = some (.tx (params.encSm s.sm.proto .write s.sm.cv (.byte s.sm.val)).bits
        ⟨s.sm.proto, .sm, s.spiSel⟩)) ∧
    (after (2 * params.smWriteRepeat s.sm.proto + 2) s).driver =
      some (.tx (params.encSm s.sm.proto .verify s.sm.cv (.byte s.sm.val)).bits ⟨s.sm.proto, .sm, s.spiSel⟩) ∧
    ∃ t, after (2 * params.smWriteRepeat s.sm.proto + 8) s = t ∧
      t.evq = (emit params (.smResult s.sm.proto .ok .write s.sm.cv s.sm.val) s).evq ∧
      t.evovf = (emit params (.smResult s.sm.proto .ok .write s.sm.cv s.sm.val) s).evovf ∧
      t.now = s.now + params.smAckDelayUs s.sm.proto + params.smAckWindowUs s.sm.proto ∧
      t.pktCnt.toNat = min (s.pktCnt.toNat + params.smWriteRepeat s.sm.proto + 1) 65535 ∧
      t = { s with
        sm := ⟨s.sm.proto, .idle, .none, 0, 0, .write, 0, 0, 0, 0, 0⟩
        evq := t.evq, evovf := t.evovf, now := t.now, pktCnt := t.pktCnt, s88Last := s.now, driver := none, agenda := rest,
        out := [] }

/-! ### The S88 slot -/

/-- 45_s88_mfx.md R290. -/
def Obligations.S88IsDueByCountOrByIdleTime : Prop :=
  ∀ (P : Params) (s : State) t, s88Due P s t = true ↔
    s.ctrl.getLsbD 1 = true ∧
      ((0 < P.s88Npkt ∧ P.s88Npkt ≤ s.pktCnt.toNat) ∨
       (0 < s.s88Maxint.toNat ∧ s.s88Last + s.s88Maxint.toNat ≤ t))

/-- 45_s88_mfx.md R292: the grant, before SCHED_SELECT and the sequencer. -/
def Obligations.S88StartIsGrantedFirst : Prop :=
  ∀ s : State, s.infl = none → s.mode ≠ .halted → ¬switchPending s → s.sm.state ≠ .sample → s88Due params s s.now = true →
    step (s.offering .psb) = .next { s with infl := some (.s88 s.now), driver := some .s88, out := [] }

/-- 45_s88_mfx.md R294, R295: a poll completed with OK moves the frame on and queues one event for each bit that flipped,
in ascending order, and no other; the slots and pauses stay. The premise on the frame is part of the invariant. -/
def Obligations.S88DoneReportsEachFlippedBit : Prop :=
  ∀ (s : State) (d : Draw) t0, s.infl = some (.s88 t0) → t0 ≤ s.now → d.status = .ok → d.vector.toNat < 2 ^ params.s88Bits →
    s.s88Cur.toNat < 2 ^ params.s88Bits →
    ∃ idx : List Nat, idx.Pairwise (· < ·) ∧
      (∀ i, i ∈ idx ↔ i < params.s88Bits ∧ d.vector.getLsbD i ≠ s.s88Cur.getLsbD i) ∧
      step (s.offering (.driver d)) = .next
        (idx.foldl (fun u i => emit params (.s88 (BitVec.ofNat 16 i) (d.vector.getLsbD i)) u)
          { s with
            infl := none, driver := none, pktCnt := 0, s88Last := s.now, s88Prev := s.s88Cur, s88Cur := d.vector
            out := if idx ≠ [] ∧ s.ctrl.getLsbD 2 = true then [.trig .s88] else [] })

/-- 45_s88_mfx.md R294: a poll that misses its timing is discarded: one event, the frame unchanged, the counters reset. -/
def Obligations.S88MissDiscardsTheFrame : Prop :=
  ∀ (s : State) (d : Draw) t0, s.infl = some (.s88 t0) → t0 ≤ s.now → d.status = .timingMiss →
    step (s.offering (.driver d)) = .next (emit params (.timingMiss 0 0 .s88)
      { s with infl := none, driver := none, pktCnt := 0, s88Last := s.now, out := [] })

/-! ### The whole machine -/

/-- 10_state.md R29, 20_memory.md R74, 60_exceptions.md R330: a transaction in flight is never altered or interrupted: until
the DRIVER completes it (or reset) it and the bits handed over stay as they are. -/
def Obligations.PacketInFlightIsNeverAltered : Prop :=
  ∀ (s : State) t f, s.infl = some f → step s = .next t → (∀ d, nextOffer s ≠ .driver d) → nextOffer s ≠ .reset →
    t.infl = some f ∧ t.driver = s.driver

/-- 10_state.md R25 (ii), R30, R31, 70_reset_and_hazards.md R355: from a sound state, no step but reset lowers NOW, an
`eligible_at` or a `PAUSE_UNTIL`. -/
def Obligations.TimersNeverDecrease : Prop :=
  ∀ (s : State) t, Inv params s → step s = .next t → nextOffer s ≠ .reset →
    s.now ≤ t.now ∧ (∀ k, (s.slot k).eligibleAt ≤ (t.slot k).eligibleAt) ∧
      ∀ p, s.pauseUntil.get p ≤ t.pauseUntil.get p

/-- 70_reset_and_hazards.md R355: every step of every agent keeps the invariant. -/
def Obligations.EveryStepKeepsTheInvariant : Prop :=
  ∀ (s : State) t, Inv params s → step s = .next t → Inv params t

/-- 70_reset_and_hazards.md R355: the state after reset is sound. -/
def Obligations.ResetMeetsTheInvariant : Prop := Inv params State.reset

/-- 70_reset_and_hazards.md R355, 10_state.md R25 (i), (iii), R41: after any number of steps from reset, whatever steps the
environment offers, the invariants hold and the next step is defined. -/
def Obligations.ReachableStatesAreLegal : Prop :=
  ∀ offers n (s : State), s = after n { State.reset with agenda := offers } →
    (∃ t, step s = .next t) ∧
    (∀ k, (s.slot k).valid = false → (s.slot k).dirty = false ∧ (s.slot k).payload = Payload.zero k.kind) ∧
    (∀ k, (s.slot k).valid = true → inRange params k.proto k.kind k.addr.toNat) ∧
    (∀ k sp dir f, (s.slot k).valid = true → (s.slot k).payload = .gl sp dir f →
      sp.toNat ≤ params.speedMax k.proto ∧ f.toNat >>> (params.funcMax k.proto + 1) = 0) ∧
    (s.sm.state ≠ .idle → s.sm.op ≠ .none ∧ (s.mode = .service ∨ s.mode = .halted)) ∧
    (s.sm.state = .idle → s.sm.op = .none) ∧
    (s.infl ≠ none → s.mode ≠ .halted) ∧
    (∀ t0, s.infl = some (.smpkt t0) ∨ s.infl = some (.ack t0) → s.mode = .service) ∧
    (∀ k w g p t0, s.infl = some (.cmd k w g p t0) → s.mode = .normal) ∧
    (∀ d, params.evqDepth = some d → s.evq.length ≤ d) ∧
    s.sm.retry.toNat ≤ params.smRetryMax s.sm.proto ∧ s.sm.rep.toNat ≤ params.smWriteRepeat s.sm.proto ∧
    (s.infl = none ↔ s.driver = none) ∧
    ∀ bits hint, s.driver = some (.tx bits hint) → 1 ≤ bits.length ∧ bits.length ≤ params.pktMaxBits

/-- 10_state.md R25 (iv): on any run from reset, an `eligible_at` is 0, the time of a step that completes a packet of its key
plus the protocol's gap, or the time of a step that creates its slot. -/
def Obligations.EligibleTimesAreAccountedFor : Prop :=
  ∀ offers n key,
    ((after n { State.reset with agenda := offers }).slot key).eligibleAt = 0 ∨
    ∃ m, m < n ∧
      ((CompletesPacket key (after m { State.reset with agenda := offers }) ∧
          ((after n { State.reset with agenda := offers }).slot key).eligibleAt =
            (after m { State.reset with agenda := offers }).now + gapOf key.proto) ∨
        (((after m { State.reset with agenda := offers }).slot key).valid = false ∧
          ((after (m + 1) { State.reset with agenda := offers }).slot key).valid = true ∧
          ((after n { State.reset with agenda := offers }).slot key).eligibleAt =
            (after m { State.reset with agenda := offers }).now))

end
end

