-- ==== Sys2Proof/Laws/Arena.lean ====
section
/-! SUPPORT. The slot arena: reads after writes, and every write keeps the canonical form (20_memory.md R78). -/

namespace Sys2Proof.Machine

theorem protoCode_injective {p q : Proto} (h : (protoCode p).toNat = (protoCode q).toNat) : p = q := by
  revert h
  cases p <;> cases q <;> decide

theorem kindCode_injective {k j : Kind} (h : kindCode k = kindCode j) : k = j := by
  revert h
  cases k <;> cases j <;> decide

theorem kindCode_le (k : Kind) : kindCode k ≤ 1 := by cases k <;> decide

/-- The order of 41_scheduler.md R154 tells keys apart. -/
theorem slotIndex_injective {k j : SlotKey} (h : slotIndex k = slotIndex j) : k = j := by
  obtain ⟨p, x, a⟩ := k
  obtain ⟨q, y, b⟩ := j
  simp only [slotIndex] at h
  have ha := a.isLt
  have hb := b.isLt
  have hx := kindCode_le x
  have hy := kindCode_le y
  have hp : p = q := protoCode_injective (by omega)
  have hk : x = y := kindCode_injective (by omega)
  have hab : a = b := BitVec.eq_of_toNat_eq (by subst hp hk; omega)
  rw [hp, hk, hab]

theorem Arena.read_erase (m : Arena) (k j : SlotKey) :
    (m.erase k).read j = if j = k then unlistedSlot k else m.read j := by
  induction m with
  | nil => by_cases h : j = k <;> simp [Arena.erase, Arena.read, h]
  | cons e rest ih =>
    obtain ⟨k', sl⟩ := e
    by_cases hk : k' = k
    · subst hk
      by_cases hj : j = k'
      · simpa [Arena.erase, hj] using ih
      · have : k' ≠ j := fun h => hj h.symm
        simpa [Arena.erase, Arena.read, hj, this] using ih
    · by_cases hj : k' = j
      · subst hj
        simp [Arena.erase, Arena.read, hk]
      · simp [Arena.erase, Arena.read, hk, hj, ih]

theorem Arena.keys_erase (m : Arena) (k : SlotKey) {e : SlotKey × Slot} (h : e ∈ m.erase k) : e ∈ m ∧ e.1 ≠ k := by
  induction m with
  | nil => simp [Arena.erase] at h
  | cons x rest ih =>
    obtain ⟨k', sl⟩ := x
    by_cases hk : k' = k
    · have := ih (by simpa [Arena.erase, hk] using h)
      exact ⟨List.mem_cons_of_mem _ this.1, this.2⟩
    · simp only [Arena.erase, hk, if_false, List.mem_cons] at h
      rcases h with rfl | h
      · exact ⟨List.mem_cons_self, hk⟩
      · exact ⟨List.mem_cons_of_mem _ (ih h).1, (ih h).2⟩

theorem Arena.read_place (m : Arena) (k j : SlotKey) (sl : Slot) (hm : ∀ e ∈ m, e.1 ≠ k) :
    (m.place k sl).read j = if j = k then sl else m.read j := by
  induction m with
  | nil =>
    by_cases h : j = k
    · simp [Arena.place, Arena.read, h]
    · have : k ≠ j := fun h' => h h'.symm
      simp [Arena.place, Arena.read, h, this]
  | cons e rest ih =>
    obtain ⟨k', sl'⟩ := e
    have hk' : k' ≠ k := hm _ List.mem_cons_self
    have ih' := ih (fun e he => hm e (List.mem_cons_of_mem _ he))
    by_cases hlt : slotIndex k < slotIndex k'
    · by_cases h : j = k
      · simp [Arena.place, Arena.read, hlt, h]
      · have : k ≠ j := fun h' => h h'.symm
        simp [Arena.place, Arena.read, hlt, h, this]
    · by_cases hj : k' = j
      · subst hj
        simp [Arena.place, Arena.read, hlt, hk']
      · simp [Arena.place, Arena.read, hlt, hj, ih']

/-- A read after a write (20_memory.md R78): the slot written at its key, every other slot as before. -/
theorem Arena.read_write (m : Arena) (k j : SlotKey) (sl : Slot) :
    (m.write k sl).read j = if j = k then sl else m.read j := by
  by_cases h : sl = unlistedSlot k
  · simp [Arena.write, h, Arena.read_erase]
  · simp only [Arena.write, h, if_false]
    rw [Arena.read_place _ _ _ _ (fun e he => (Arena.keys_erase m k he).2), Arena.read_erase]
    by_cases hj : j = k <;> simp [hj]

theorem Arena.all_erase (m : Arena) (k : SlotKey) (f : SlotKey × Slot → Bool) (h : m.all f = true) :
    (m.erase k).all f = true :=
  List.all_eq_true.2 fun e he => List.all_eq_true.1 h e (Arena.keys_erase m k he).1

theorem Arena.wf_erase (m : Arena) (k : SlotKey) (h : m.wf = true) : (m.erase k).wf = true := by
  induction m with
  | nil => rfl
  | cons e rest ih =>
    obtain ⟨k', sl⟩ := e
    simp only [Arena.wf, Bool.and_eq_true] at h
    by_cases hk : k' = k
    · simpa [Arena.erase, hk] using ih h.2
    · simp only [Arena.erase, hk, if_false, Arena.wf, Bool.and_eq_true]
      exact ⟨⟨h.1.1, Arena.all_erase rest k _ h.1.2⟩, ih h.2⟩

theorem Arena.mem_place {m : Arena} {k : SlotKey} {sl : Slot} {e : SlotKey × Slot} (h : e ∈ m.place k sl) :
    e = (k, sl) ∨ e ∈ m := by
  induction m with
  | nil => exact .inl (by simpa [Arena.place] using h)
  | cons x rest ih =>
    obtain ⟨k', sl'⟩ := x
    by_cases hlt : slotIndex k < slotIndex k'
    · simpa [Arena.place, hlt] using h
    · simp only [Arena.place, hlt, if_false, List.mem_cons] at h
      rcases h with rfl | h
      · exact .inr List.mem_cons_self
      · exact (ih h).imp id (List.mem_cons_of_mem _)

theorem Arena.wf_place (m : Arena) (k : SlotKey) (sl : Slot) (hs : sl ≠ unlistedSlot k) (hm : ∀ e ∈ m, e.1 ≠ k)
    (h : m.wf = true) : (m.place k sl).wf = true := by
  induction m with
  | nil => simp [Arena.place, Arena.wf, hs]
  | cons e rest ih =>
    obtain ⟨k', sl'⟩ := e
    have hr : ∀ e ∈ rest, e.1 ≠ k := fun e he => hm e (List.mem_cons_of_mem _ he)
    have hw := h
    simp only [Arena.wf, Bool.and_eq_true, decide_eq_true_eq, List.all_eq_true] at hw
    by_cases hlt : slotIndex k < slotIndex k'
    · have hall : ∀ e ∈ ((k', sl') :: rest : Arena), slotIndex k < slotIndex e.1 := by
        intro e he
        rcases List.mem_cons.1 he with rfl | he
        · exact hlt
        · exact lt_trans hlt (hw.1.2 e he)
      simp only [Arena.place, hlt, if_true]
      rw [Arena.wf, h]
      simpa [hs] using hall
    · have hgt : slotIndex k' < slotIndex k :=
        lt_of_le_of_ne (not_lt.1 hlt) fun he => hm _ List.mem_cons_self (slotIndex_injective he)
      simp only [Arena.place, hlt, if_false, Arena.wf, Bool.and_eq_true, decide_eq_true_eq, List.all_eq_true]
      refine ⟨⟨hw.1.1, fun e he => ?_⟩, ih hr hw.2⟩
      rcases Arena.mem_place he with rfl | he
      · exact hgt
      · exact hw.1.2 e he

/-- A slot write keeps the canonical form. -/
theorem Arena.wf_write (m : Arena) (k : SlotKey) (sl : Slot) (h : m.wf = true) : (m.write k sl).wf = true := by
  by_cases hs : sl = unlistedSlot k
  · simpa [Arena.write, hs] using Arena.wf_erase m k h
  · simp only [Arena.write, hs, if_false]
    exact Arena.wf_place _ _ _ hs (fun e he => (Arena.keys_erase m k he).2) (Arena.wf_erase m k h)

/-- The slot of a key after a slot write. -/
@[simp] theorem State.slot_writeSlot (s : State) (k j : SlotKey) (sl : Slot) :
    (s.writeSlot k sl).slot j = if j = k then sl else s.slot j := Arena.read_write _ _ _ _

/-- The reset state's arena is canonical. -/
theorem reset_arena_wf : State.reset.arena.wf = true := rfl

end Sys2Proof.Machine
end

