-- ==== Sys2Proof/Laws/Operands.lean ====
section
/-! SUPPORT. What the operand checks answer (40_registry_commands.md R132). -/

namespace Sys2Proof.Machine

@[simp] theorem require_true (r : Reason) : require true r = .ok () := rfl
@[simp] theorem require_false (r : Reason) : require false r = .error r := rfl

/-- A check passes exactly when its condition holds. -/
theorem require_eq_ok {b : Bool} {r : Reason} {u : Unit} : require b r = .ok u ↔ b = true := by
  cases b <;> simp

@[simp] theorem bind_ok {α β : Type} (a : α) (f : α → Except Reason β) : (Except.ok a >>= f) = f a := rfl
@[simp] theorem bind_error {α β : Type} (r : Reason) (f : α → Except Reason β) :
    ((Except.error r : Except Reason α) >>= f) = .error r := rfl
@[simp] theorem pure_ok {α : Type} (a : α) : (pure a : Except Reason α) = .ok a := rfl

/-- Checks 2 and 3 pass exactly when the mode admits the command and its zero fields are zero. -/
theorem preCheck_eq_ok {i : Instr} {s : State} {u : Unit} :
    preCheck i s = .ok u ↔ (s.mode ≠ .halted ∨ exemptFromHalt i = true) ∧ zeroFieldsClear i = true := by
  unfold preCheck
  cases hm : s.mode <;> cases he : exemptFromHalt i <;> cases h2 : zeroFieldsClear i <;> simp_all

/-- Checks 2 and 3 fail with the first reason that applies. -/
theorem preCheck_eq_error {i : Instr} {s : State} {r : Reason} :
    preCheck i s = .error r ↔
      (s.mode = .halted ∧ exemptFromHalt i = false ∧ r = .halted) ∨
      ((s.mode ≠ .halted ∨ exemptFromHalt i = true) ∧ zeroFieldsClear i = false ∧ r = .reservedNonzero) := by
  cases hm : s.mode <;> cases he : exemptFromHalt i <;> cases h2 : zeroFieldsClear i <;>
    simp [preCheck, hm, he, h2, eq_comm (a := r)]

@[simp] theorem protoOperand_some (p : Proto) : protoOperand (some p) = .ok p := rfl
@[simp] theorem protoOperand_none : protoOperand none = .error .badProto := rfl

/-- Checks 4 and 5 give a key exactly when the protocol is one of the three and the address is in its range
(20_memory.md R83). -/
theorem keyOperand_eq_ok {P : Params} {proto : Option Proto} {k : Kind} {a : BitVec 14} {key : SlotKey} :
    keyOperand P proto k a = .ok key ↔ ∃ p, proto = some p ∧ key = ⟨p, k, a⟩ ∧ addrValid P key = true := by
  cases proto with
  | none => simp [keyOperand]
  | some p =>
    cases hm : addrMax P p k with
    | none =>
      simp only [keyOperand, protoOperand_some, bind_ok, hm]
      constructor
      · intro h; cases h
      · rintro ⟨q, hq, rfl, hv⟩
        cases hq
        simp [addrValid, hm] at hv
    | some hi =>
      simp only [keyOperand, protoOperand_some, bind_ok, hm]
      by_cases hr : P.addrMin ≤ a.toNat ∧ a.toNat ≤ hi
      · simp only [hr, and_self, decide_true, require_true, bind_ok, pure_ok, Except.ok.injEq]
        constructor
        · rintro rfl
          exact ⟨p, rfl, rfl, by simp [addrValid, hm, hr]⟩
        · rintro ⟨q, hq, rfl, _⟩
          cases hq
          rfl
      · simp only [hr, decide_false, require_false, bind_error]
        constructor
        · intro h; cases h
        · rintro ⟨q, hq, rfl, hv⟩
          cases hq
          simp [addrValid, hm] at hv
          exact absurd hv hr

/-- The key of an accepted address. -/
theorem keyOperand_of_valid {P : Params} {p : Proto} {k : Kind} {a : BitVec 14} (h : addrValid P ⟨p, k, a⟩ = true) :
    keyOperand P (some p) k a = .ok ⟨p, k, a⟩ := keyOperand_eq_ok.2 ⟨p, rfl, rfl, h⟩

/-- The well-formedness check of the syntax and the machine's check 3 agree. -/
theorem zeroFieldsClear_eq (i : Instr) : zeroFieldsClear i = i.zeroFieldsZero := by cases i <;> rfl

end Sys2Proof.Machine
end

