-- ==== Sys2Proof/Laws/State.lean ====
section
/-! SUPPORT. What each field reads as after each update of the state: one lemma a field and an update, true by definition,
for simp. -/

namespace Sys2Proof.Machine

/-! ### writeSlot -/

@[simp] theorem State.writeSlot_now (s : State) (k : SlotKey) (sl : Slot) : (s.writeSlot k sl).now = s.now := rfl
@[simp] theorem State.writeSlot_arena (s : State) (k : SlotKey) (sl : Slot) : (s.writeSlot k sl).arena = s.arena.write k sl := rfl
@[simp] theorem State.writeSlot_pauseUntil (s : State) (k : SlotKey) (sl : Slot) : (s.writeSlot k sl).pauseUntil = s.pauseUntil := rfl
@[simp] theorem State.writeSlot_mode (s : State) (k : SlotKey) (sl : Slot) : (s.writeSlot k sl).mode = s.mode := rfl
@[simp] theorem State.writeSlot_target (s : State) (k : SlotKey) (sl : Slot) : (s.writeSlot k sl).target = s.target := rfl
@[simp] theorem State.writeSlot_targetProto (s : State) (k : SlotKey) (sl : Slot) : (s.writeSlot k sl).targetProto = s.targetProto := rfl
@[simp] theorem State.writeSlot_infl (s : State) (k : SlotKey) (sl : Slot) : (s.writeSlot k sl).infl = s.infl := rfl
@[simp] theorem State.writeSlot_pktCnt (s : State) (k : SlotKey) (sl : Slot) : (s.writeSlot k sl).pktCnt = s.pktCnt := rfl
@[simp] theorem State.writeSlot_s88Last (s : State) (k : SlotKey) (sl : Slot) : (s.writeSlot k sl).s88Last = s.s88Last := rfl
@[simp] theorem State.writeSlot_s88Cur (s : State) (k : SlotKey) (sl : Slot) : (s.writeSlot k sl).s88Cur = s.s88Cur := rfl
@[simp] theorem State.writeSlot_s88Prev (s : State) (k : SlotKey) (sl : Slot) : (s.writeSlot k sl).s88Prev = s.s88Prev := rfl
@[simp] theorem State.writeSlot_sm (s : State) (k : SlotKey) (sl : Slot) : (s.writeSlot k sl).sm = s.sm := rfl
@[simp] theorem State.writeSlot_ctrl (s : State) (k : SlotKey) (sl : Slot) : (s.writeSlot k sl).ctrl = s.ctrl := rfl
@[simp] theorem State.writeSlot_s88Maxint (s : State) (k : SlotKey) (sl : Slot) : (s.writeSlot k sl).s88Maxint = s.s88Maxint := rfl
@[simp] theorem State.writeSlot_evq (s : State) (k : SlotKey) (sl : Slot) : (s.writeSlot k sl).evq = s.evq := rfl
@[simp] theorem State.writeSlot_evovf (s : State) (k : SlotKey) (sl : Slot) : (s.writeSlot k sl).evovf = s.evovf := rfl
@[simp] theorem State.writeSlot_driver (s : State) (k : SlotKey) (sl : Slot) : (s.writeSlot k sl).driver = s.driver := rfl
@[simp] theorem State.writeSlot_out (s : State) (k : SlotKey) (sl : Slot) : (s.writeSlot k sl).out = s.out := rfl
@[simp] theorem State.writeSlot_agenda (s : State) (k : SlotKey) (sl : Slot) : (s.writeSlot k sl).agenda = s.agenda := rfl
@[simp] theorem State.writeSlot_drawn (s : State) (k : SlotKey) (sl : Slot) : (s.writeSlot k sl).drawn = s.drawn := rfl

/-! ### raisePause -/

@[simp] theorem State.raisePause_now (s : State) (p : Proto) (t : Nat) : (s.raisePause p t).now = s.now := rfl
@[simp] theorem State.raisePause_arena (s : State) (p : Proto) (t : Nat) : (s.raisePause p t).arena = s.arena := rfl
@[simp] theorem State.raisePause_pauseUntil (s : State) (p : Proto) (t : Nat) : (s.raisePause p t).pauseUntil = s.pauseUntil.raise p t := rfl
@[simp] theorem State.raisePause_mode (s : State) (p : Proto) (t : Nat) : (s.raisePause p t).mode = s.mode := rfl
@[simp] theorem State.raisePause_target (s : State) (p : Proto) (t : Nat) : (s.raisePause p t).target = s.target := rfl
@[simp] theorem State.raisePause_targetProto (s : State) (p : Proto) (t : Nat) : (s.raisePause p t).targetProto = s.targetProto := rfl
@[simp] theorem State.raisePause_infl (s : State) (p : Proto) (t : Nat) : (s.raisePause p t).infl = s.infl := rfl
@[simp] theorem State.raisePause_pktCnt (s : State) (p : Proto) (t : Nat) : (s.raisePause p t).pktCnt = s.pktCnt := rfl
@[simp] theorem State.raisePause_s88Last (s : State) (p : Proto) (t : Nat) : (s.raisePause p t).s88Last = s.s88Last := rfl
@[simp] theorem State.raisePause_s88Cur (s : State) (p : Proto) (t : Nat) : (s.raisePause p t).s88Cur = s.s88Cur := rfl
@[simp] theorem State.raisePause_s88Prev (s : State) (p : Proto) (t : Nat) : (s.raisePause p t).s88Prev = s.s88Prev := rfl
@[simp] theorem State.raisePause_sm (s : State) (p : Proto) (t : Nat) : (s.raisePause p t).sm = s.sm := rfl
@[simp] theorem State.raisePause_ctrl (s : State) (p : Proto) (t : Nat) : (s.raisePause p t).ctrl = s.ctrl := rfl
@[simp] theorem State.raisePause_s88Maxint (s : State) (p : Proto) (t : Nat) : (s.raisePause p t).s88Maxint = s.s88Maxint := rfl
@[simp] theorem State.raisePause_evq (s : State) (p : Proto) (t : Nat) : (s.raisePause p t).evq = s.evq := rfl
@[simp] theorem State.raisePause_evovf (s : State) (p : Proto) (t : Nat) : (s.raisePause p t).evovf = s.evovf := rfl
@[simp] theorem State.raisePause_driver (s : State) (p : Proto) (t : Nat) : (s.raisePause p t).driver = s.driver := rfl
@[simp] theorem State.raisePause_out (s : State) (p : Proto) (t : Nat) : (s.raisePause p t).out = s.out := rfl
@[simp] theorem State.raisePause_agenda (s : State) (p : Proto) (t : Nat) : (s.raisePause p t).agenda = s.agenda := rfl
@[simp] theorem State.raisePause_drawn (s : State) (p : Proto) (t : Nat) : (s.raisePause p t).drawn = s.drawn := rfl

/-! ### withSm -/

@[simp] theorem State.withSm_now (s : State) (r : SmRegs) : (s.withSm r).now = s.now := rfl
@[simp] theorem State.withSm_arena (s : State) (r : SmRegs) : (s.withSm r).arena = s.arena := rfl
@[simp] theorem State.withSm_pauseUntil (s : State) (r : SmRegs) : (s.withSm r).pauseUntil = s.pauseUntil := rfl
@[simp] theorem State.withSm_mode (s : State) (r : SmRegs) : (s.withSm r).mode = s.mode := rfl
@[simp] theorem State.withSm_target (s : State) (r : SmRegs) : (s.withSm r).target = s.target := rfl
@[simp] theorem State.withSm_targetProto (s : State) (r : SmRegs) : (s.withSm r).targetProto = s.targetProto := rfl
@[simp] theorem State.withSm_infl (s : State) (r : SmRegs) : (s.withSm r).infl = s.infl := rfl
@[simp] theorem State.withSm_pktCnt (s : State) (r : SmRegs) : (s.withSm r).pktCnt = s.pktCnt := rfl
@[simp] theorem State.withSm_s88Last (s : State) (r : SmRegs) : (s.withSm r).s88Last = s.s88Last := rfl
@[simp] theorem State.withSm_s88Cur (s : State) (r : SmRegs) : (s.withSm r).s88Cur = s.s88Cur := rfl
@[simp] theorem State.withSm_s88Prev (s : State) (r : SmRegs) : (s.withSm r).s88Prev = s.s88Prev := rfl
@[simp] theorem State.withSm_sm (s : State) (r : SmRegs) : (s.withSm r).sm = r := rfl
@[simp] theorem State.withSm_ctrl (s : State) (r : SmRegs) : (s.withSm r).ctrl = s.ctrl := rfl
@[simp] theorem State.withSm_s88Maxint (s : State) (r : SmRegs) : (s.withSm r).s88Maxint = s.s88Maxint := rfl
@[simp] theorem State.withSm_evq (s : State) (r : SmRegs) : (s.withSm r).evq = s.evq := rfl
@[simp] theorem State.withSm_evovf (s : State) (r : SmRegs) : (s.withSm r).evovf = s.evovf := rfl
@[simp] theorem State.withSm_driver (s : State) (r : SmRegs) : (s.withSm r).driver = s.driver := rfl
@[simp] theorem State.withSm_out (s : State) (r : SmRegs) : (s.withSm r).out = s.out := rfl
@[simp] theorem State.withSm_agenda (s : State) (r : SmRegs) : (s.withSm r).agenda = s.agenda := rfl
@[simp] theorem State.withSm_drawn (s : State) (r : SmRegs) : (s.withSm r).drawn = s.drawn := rfl

/-! ### withMode -/

@[simp] theorem State.withMode_now (s : State) (m : Mode) : (s.withMode m).now = s.now := rfl
@[simp] theorem State.withMode_arena (s : State) (m : Mode) : (s.withMode m).arena = s.arena := rfl
@[simp] theorem State.withMode_pauseUntil (s : State) (m : Mode) : (s.withMode m).pauseUntil = s.pauseUntil := rfl
@[simp] theorem State.withMode_mode (s : State) (m : Mode) : (s.withMode m).mode = m := rfl
@[simp] theorem State.withMode_target (s : State) (m : Mode) : (s.withMode m).target = s.target := rfl
@[simp] theorem State.withMode_targetProto (s : State) (m : Mode) : (s.withMode m).targetProto = s.targetProto := rfl
@[simp] theorem State.withMode_infl (s : State) (m : Mode) : (s.withMode m).infl = s.infl := rfl
@[simp] theorem State.withMode_pktCnt (s : State) (m : Mode) : (s.withMode m).pktCnt = s.pktCnt := rfl
@[simp] theorem State.withMode_s88Last (s : State) (m : Mode) : (s.withMode m).s88Last = s.s88Last := rfl
@[simp] theorem State.withMode_s88Cur (s : State) (m : Mode) : (s.withMode m).s88Cur = s.s88Cur := rfl
@[simp] theorem State.withMode_s88Prev (s : State) (m : Mode) : (s.withMode m).s88Prev = s.s88Prev := rfl
@[simp] theorem State.withMode_sm (s : State) (m : Mode) : (s.withMode m).sm = s.sm := rfl
@[simp] theorem State.withMode_ctrl (s : State) (m : Mode) : (s.withMode m).ctrl = s.ctrl := rfl
@[simp] theorem State.withMode_s88Maxint (s : State) (m : Mode) : (s.withMode m).s88Maxint = s.s88Maxint := rfl
@[simp] theorem State.withMode_evq (s : State) (m : Mode) : (s.withMode m).evq = s.evq := rfl
@[simp] theorem State.withMode_evovf (s : State) (m : Mode) : (s.withMode m).evovf = s.evovf := rfl
@[simp] theorem State.withMode_driver (s : State) (m : Mode) : (s.withMode m).driver = s.driver := rfl
@[simp] theorem State.withMode_out (s : State) (m : Mode) : (s.withMode m).out = s.out := rfl
@[simp] theorem State.withMode_agenda (s : State) (m : Mode) : (s.withMode m).agenda = s.agenda := rfl
@[simp] theorem State.withMode_drawn (s : State) (m : Mode) : (s.withMode m).drawn = s.drawn := rfl

/-! ### withTarget -/

@[simp] theorem State.withTarget_now (s : State) (b : Bool) (p : Proto) : (s.withTarget b p).now = s.now := rfl
@[simp] theorem State.withTarget_arena (s : State) (b : Bool) (p : Proto) : (s.withTarget b p).arena = s.arena := rfl
@[simp] theorem State.withTarget_pauseUntil (s : State) (b : Bool) (p : Proto) : (s.withTarget b p).pauseUntil = s.pauseUntil := rfl
@[simp] theorem State.withTarget_mode (s : State) (b : Bool) (p : Proto) : (s.withTarget b p).mode = s.mode := rfl
@[simp] theorem State.withTarget_target (s : State) (b : Bool) (p : Proto) : (s.withTarget b p).target = b := rfl
@[simp] theorem State.withTarget_targetProto (s : State) (b : Bool) (p : Proto) : (s.withTarget b p).targetProto = p := rfl
@[simp] theorem State.withTarget_infl (s : State) (b : Bool) (p : Proto) : (s.withTarget b p).infl = s.infl := rfl
@[simp] theorem State.withTarget_pktCnt (s : State) (b : Bool) (p : Proto) : (s.withTarget b p).pktCnt = s.pktCnt := rfl
@[simp] theorem State.withTarget_s88Last (s : State) (b : Bool) (p : Proto) : (s.withTarget b p).s88Last = s.s88Last := rfl
@[simp] theorem State.withTarget_s88Cur (s : State) (b : Bool) (p : Proto) : (s.withTarget b p).s88Cur = s.s88Cur := rfl
@[simp] theorem State.withTarget_s88Prev (s : State) (b : Bool) (p : Proto) : (s.withTarget b p).s88Prev = s.s88Prev := rfl
@[simp] theorem State.withTarget_sm (s : State) (b : Bool) (p : Proto) : (s.withTarget b p).sm = s.sm := rfl
@[simp] theorem State.withTarget_ctrl (s : State) (b : Bool) (p : Proto) : (s.withTarget b p).ctrl = s.ctrl := rfl
@[simp] theorem State.withTarget_s88Maxint (s : State) (b : Bool) (p : Proto) : (s.withTarget b p).s88Maxint = s.s88Maxint := rfl
@[simp] theorem State.withTarget_evq (s : State) (b : Bool) (p : Proto) : (s.withTarget b p).evq = s.evq := rfl
@[simp] theorem State.withTarget_evovf (s : State) (b : Bool) (p : Proto) : (s.withTarget b p).evovf = s.evovf := rfl
@[simp] theorem State.withTarget_driver (s : State) (b : Bool) (p : Proto) : (s.withTarget b p).driver = s.driver := rfl
@[simp] theorem State.withTarget_out (s : State) (b : Bool) (p : Proto) : (s.withTarget b p).out = s.out := rfl
@[simp] theorem State.withTarget_agenda (s : State) (b : Bool) (p : Proto) : (s.withTarget b p).agenda = s.agenda := rfl
@[simp] theorem State.withTarget_drawn (s : State) (b : Bool) (p : Proto) : (s.withTarget b p).drawn = s.drawn := rfl

/-! ### withCtrl -/

@[simp] theorem State.withCtrl_now (s : State) (v : BitVec 32) : (s.withCtrl v).now = s.now := rfl
@[simp] theorem State.withCtrl_arena (s : State) (v : BitVec 32) : (s.withCtrl v).arena = s.arena := rfl
@[simp] theorem State.withCtrl_pauseUntil (s : State) (v : BitVec 32) : (s.withCtrl v).pauseUntil = s.pauseUntil := rfl
@[simp] theorem State.withCtrl_mode (s : State) (v : BitVec 32) : (s.withCtrl v).mode = s.mode := rfl
@[simp] theorem State.withCtrl_target (s : State) (v : BitVec 32) : (s.withCtrl v).target = s.target := rfl
@[simp] theorem State.withCtrl_targetProto (s : State) (v : BitVec 32) : (s.withCtrl v).targetProto = s.targetProto := rfl
@[simp] theorem State.withCtrl_infl (s : State) (v : BitVec 32) : (s.withCtrl v).infl = s.infl := rfl
@[simp] theorem State.withCtrl_pktCnt (s : State) (v : BitVec 32) : (s.withCtrl v).pktCnt = s.pktCnt := rfl
@[simp] theorem State.withCtrl_s88Last (s : State) (v : BitVec 32) : (s.withCtrl v).s88Last = s.s88Last := rfl
@[simp] theorem State.withCtrl_s88Cur (s : State) (v : BitVec 32) : (s.withCtrl v).s88Cur = s.s88Cur := rfl
@[simp] theorem State.withCtrl_s88Prev (s : State) (v : BitVec 32) : (s.withCtrl v).s88Prev = s.s88Prev := rfl
@[simp] theorem State.withCtrl_sm (s : State) (v : BitVec 32) : (s.withCtrl v).sm = s.sm := rfl
@[simp] theorem State.withCtrl_ctrl (s : State) (v : BitVec 32) : (s.withCtrl v).ctrl = v := rfl
@[simp] theorem State.withCtrl_s88Maxint (s : State) (v : BitVec 32) : (s.withCtrl v).s88Maxint = s.s88Maxint := rfl
@[simp] theorem State.withCtrl_evq (s : State) (v : BitVec 32) : (s.withCtrl v).evq = s.evq := rfl
@[simp] theorem State.withCtrl_evovf (s : State) (v : BitVec 32) : (s.withCtrl v).evovf = s.evovf := rfl
@[simp] theorem State.withCtrl_driver (s : State) (v : BitVec 32) : (s.withCtrl v).driver = s.driver := rfl
@[simp] theorem State.withCtrl_out (s : State) (v : BitVec 32) : (s.withCtrl v).out = s.out := rfl
@[simp] theorem State.withCtrl_agenda (s : State) (v : BitVec 32) : (s.withCtrl v).agenda = s.agenda := rfl
@[simp] theorem State.withCtrl_drawn (s : State) (v : BitVec 32) : (s.withCtrl v).drawn = s.drawn := rfl

/-! ### withMaxint -/

@[simp] theorem State.withMaxint_now (s : State) (v : BitVec 32) : (s.withMaxint v).now = s.now := rfl
@[simp] theorem State.withMaxint_arena (s : State) (v : BitVec 32) : (s.withMaxint v).arena = s.arena := rfl
@[simp] theorem State.withMaxint_pauseUntil (s : State) (v : BitVec 32) : (s.withMaxint v).pauseUntil = s.pauseUntil := rfl
@[simp] theorem State.withMaxint_mode (s : State) (v : BitVec 32) : (s.withMaxint v).mode = s.mode := rfl
@[simp] theorem State.withMaxint_target (s : State) (v : BitVec 32) : (s.withMaxint v).target = s.target := rfl
@[simp] theorem State.withMaxint_targetProto (s : State) (v : BitVec 32) : (s.withMaxint v).targetProto = s.targetProto := rfl
@[simp] theorem State.withMaxint_infl (s : State) (v : BitVec 32) : (s.withMaxint v).infl = s.infl := rfl
@[simp] theorem State.withMaxint_pktCnt (s : State) (v : BitVec 32) : (s.withMaxint v).pktCnt = s.pktCnt := rfl
@[simp] theorem State.withMaxint_s88Last (s : State) (v : BitVec 32) : (s.withMaxint v).s88Last = s.s88Last := rfl
@[simp] theorem State.withMaxint_s88Cur (s : State) (v : BitVec 32) : (s.withMaxint v).s88Cur = s.s88Cur := rfl
@[simp] theorem State.withMaxint_s88Prev (s : State) (v : BitVec 32) : (s.withMaxint v).s88Prev = s.s88Prev := rfl
@[simp] theorem State.withMaxint_sm (s : State) (v : BitVec 32) : (s.withMaxint v).sm = s.sm := rfl
@[simp] theorem State.withMaxint_ctrl (s : State) (v : BitVec 32) : (s.withMaxint v).ctrl = s.ctrl := rfl
@[simp] theorem State.withMaxint_s88Maxint (s : State) (v : BitVec 32) : (s.withMaxint v).s88Maxint = v := rfl
@[simp] theorem State.withMaxint_evq (s : State) (v : BitVec 32) : (s.withMaxint v).evq = s.evq := rfl
@[simp] theorem State.withMaxint_evovf (s : State) (v : BitVec 32) : (s.withMaxint v).evovf = s.evovf := rfl
@[simp] theorem State.withMaxint_driver (s : State) (v : BitVec 32) : (s.withMaxint v).driver = s.driver := rfl
@[simp] theorem State.withMaxint_out (s : State) (v : BitVec 32) : (s.withMaxint v).out = s.out := rfl
@[simp] theorem State.withMaxint_agenda (s : State) (v : BitVec 32) : (s.withMaxint v).agenda = s.agenda := rfl
@[simp] theorem State.withMaxint_drawn (s : State) (v : BitVec 32) : (s.withMaxint v).drawn = s.drawn := rfl

/-! ### countPacket -/

@[simp] theorem State.countPacket_now (s : State) : s.countPacket.now = s.now := rfl
@[simp] theorem State.countPacket_arena (s : State) : s.countPacket.arena = s.arena := rfl
@[simp] theorem State.countPacket_pauseUntil (s : State) : s.countPacket.pauseUntil = s.pauseUntil := rfl
@[simp] theorem State.countPacket_mode (s : State) : s.countPacket.mode = s.mode := rfl
@[simp] theorem State.countPacket_target (s : State) : s.countPacket.target = s.target := rfl
@[simp] theorem State.countPacket_targetProto (s : State) : s.countPacket.targetProto = s.targetProto := rfl
@[simp] theorem State.countPacket_infl (s : State) : s.countPacket.infl = s.infl := rfl
@[simp] theorem State.countPacket_pktCnt (s : State) : s.countPacket.pktCnt = satInc s.pktCnt := rfl
@[simp] theorem State.countPacket_s88Last (s : State) : s.countPacket.s88Last = s.now := rfl
@[simp] theorem State.countPacket_s88Cur (s : State) : s.countPacket.s88Cur = s.s88Cur := rfl
@[simp] theorem State.countPacket_s88Prev (s : State) : s.countPacket.s88Prev = s.s88Prev := rfl
@[simp] theorem State.countPacket_sm (s : State) : s.countPacket.sm = s.sm := rfl
@[simp] theorem State.countPacket_ctrl (s : State) : s.countPacket.ctrl = s.ctrl := rfl
@[simp] theorem State.countPacket_s88Maxint (s : State) : s.countPacket.s88Maxint = s.s88Maxint := rfl
@[simp] theorem State.countPacket_evq (s : State) : s.countPacket.evq = s.evq := rfl
@[simp] theorem State.countPacket_evovf (s : State) : s.countPacket.evovf = s.evovf := rfl
@[simp] theorem State.countPacket_driver (s : State) : s.countPacket.driver = s.driver := rfl
@[simp] theorem State.countPacket_out (s : State) : s.countPacket.out = s.out := rfl
@[simp] theorem State.countPacket_agenda (s : State) : s.countPacket.agenda = s.agenda := rfl
@[simp] theorem State.countPacket_drawn (s : State) : s.countPacket.drawn = s.drawn := rfl

/-! ### countPoll -/

@[simp] theorem State.countPoll_now (s : State) : s.countPoll.now = s.now := rfl
@[simp] theorem State.countPoll_arena (s : State) : s.countPoll.arena = s.arena := rfl
@[simp] theorem State.countPoll_pauseUntil (s : State) : s.countPoll.pauseUntil = s.pauseUntil := rfl
@[simp] theorem State.countPoll_mode (s : State) : s.countPoll.mode = s.mode := rfl
@[simp] theorem State.countPoll_target (s : State) : s.countPoll.target = s.target := rfl
@[simp] theorem State.countPoll_targetProto (s : State) : s.countPoll.targetProto = s.targetProto := rfl
@[simp] theorem State.countPoll_infl (s : State) : s.countPoll.infl = s.infl := rfl
@[simp] theorem State.countPoll_pktCnt (s : State) : s.countPoll.pktCnt = 0 := rfl
@[simp] theorem State.countPoll_s88Last (s : State) : s.countPoll.s88Last = s.now := rfl
@[simp] theorem State.countPoll_s88Cur (s : State) : s.countPoll.s88Cur = s.s88Cur := rfl
@[simp] theorem State.countPoll_s88Prev (s : State) : s.countPoll.s88Prev = s.s88Prev := rfl
@[simp] theorem State.countPoll_sm (s : State) : s.countPoll.sm = s.sm := rfl
@[simp] theorem State.countPoll_ctrl (s : State) : s.countPoll.ctrl = s.ctrl := rfl
@[simp] theorem State.countPoll_s88Maxint (s : State) : s.countPoll.s88Maxint = s.s88Maxint := rfl
@[simp] theorem State.countPoll_evq (s : State) : s.countPoll.evq = s.evq := rfl
@[simp] theorem State.countPoll_evovf (s : State) : s.countPoll.evovf = s.evovf := rfl
@[simp] theorem State.countPoll_driver (s : State) : s.countPoll.driver = s.driver := rfl
@[simp] theorem State.countPoll_out (s : State) : s.countPoll.out = s.out := rfl
@[simp] theorem State.countPoll_agenda (s : State) : s.countPoll.agenda = s.agenda := rfl
@[simp] theorem State.countPoll_drawn (s : State) : s.countPoll.drawn = s.drawn := rfl

/-! ### withFrame -/

@[simp] theorem State.withFrame_now (s : State) (prev cur : S88Vector) : (s.withFrame prev cur).now = s.now := rfl
@[simp] theorem State.withFrame_arena (s : State) (prev cur : S88Vector) : (s.withFrame prev cur).arena = s.arena := rfl
@[simp] theorem State.withFrame_pauseUntil (s : State) (prev cur : S88Vector) : (s.withFrame prev cur).pauseUntil = s.pauseUntil := rfl
@[simp] theorem State.withFrame_mode (s : State) (prev cur : S88Vector) : (s.withFrame prev cur).mode = s.mode := rfl
@[simp] theorem State.withFrame_target (s : State) (prev cur : S88Vector) : (s.withFrame prev cur).target = s.target := rfl
@[simp] theorem State.withFrame_targetProto (s : State) (prev cur : S88Vector) : (s.withFrame prev cur).targetProto = s.targetProto := rfl
@[simp] theorem State.withFrame_infl (s : State) (prev cur : S88Vector) : (s.withFrame prev cur).infl = s.infl := rfl
@[simp] theorem State.withFrame_pktCnt (s : State) (prev cur : S88Vector) : (s.withFrame prev cur).pktCnt = s.pktCnt := rfl
@[simp] theorem State.withFrame_s88Last (s : State) (prev cur : S88Vector) : (s.withFrame prev cur).s88Last = s.s88Last := rfl
@[simp] theorem State.withFrame_s88Cur (s : State) (prev cur : S88Vector) : (s.withFrame prev cur).s88Cur = cur := rfl
@[simp] theorem State.withFrame_s88Prev (s : State) (prev cur : S88Vector) : (s.withFrame prev cur).s88Prev = prev := rfl
@[simp] theorem State.withFrame_sm (s : State) (prev cur : S88Vector) : (s.withFrame prev cur).sm = s.sm := rfl
@[simp] theorem State.withFrame_ctrl (s : State) (prev cur : S88Vector) : (s.withFrame prev cur).ctrl = s.ctrl := rfl
@[simp] theorem State.withFrame_s88Maxint (s : State) (prev cur : S88Vector) : (s.withFrame prev cur).s88Maxint = s.s88Maxint := rfl
@[simp] theorem State.withFrame_evq (s : State) (prev cur : S88Vector) : (s.withFrame prev cur).evq = s.evq := rfl
@[simp] theorem State.withFrame_evovf (s : State) (prev cur : S88Vector) : (s.withFrame prev cur).evovf = s.evovf := rfl
@[simp] theorem State.withFrame_driver (s : State) (prev cur : S88Vector) : (s.withFrame prev cur).driver = s.driver := rfl
@[simp] theorem State.withFrame_out (s : State) (prev cur : S88Vector) : (s.withFrame prev cur).out = s.out := rfl
@[simp] theorem State.withFrame_agenda (s : State) (prev cur : S88Vector) : (s.withFrame prev cur).agenda = s.agenda := rfl
@[simp] theorem State.withFrame_drawn (s : State) (prev cur : S88Vector) : (s.withFrame prev cur).drawn = s.drawn := rfl

/-! ### withNow -/

@[simp] theorem State.withNow_now (s : State) (t : Nat) : (s.withNow t).now = t := rfl
@[simp] theorem State.withNow_arena (s : State) (t : Nat) : (s.withNow t).arena = s.arena := rfl
@[simp] theorem State.withNow_pauseUntil (s : State) (t : Nat) : (s.withNow t).pauseUntil = s.pauseUntil := rfl
@[simp] theorem State.withNow_mode (s : State) (t : Nat) : (s.withNow t).mode = s.mode := rfl
@[simp] theorem State.withNow_target (s : State) (t : Nat) : (s.withNow t).target = s.target := rfl
@[simp] theorem State.withNow_targetProto (s : State) (t : Nat) : (s.withNow t).targetProto = s.targetProto := rfl
@[simp] theorem State.withNow_infl (s : State) (t : Nat) : (s.withNow t).infl = s.infl := rfl
@[simp] theorem State.withNow_pktCnt (s : State) (t : Nat) : (s.withNow t).pktCnt = s.pktCnt := rfl
@[simp] theorem State.withNow_s88Last (s : State) (t : Nat) : (s.withNow t).s88Last = s.s88Last := rfl
@[simp] theorem State.withNow_s88Cur (s : State) (t : Nat) : (s.withNow t).s88Cur = s.s88Cur := rfl
@[simp] theorem State.withNow_s88Prev (s : State) (t : Nat) : (s.withNow t).s88Prev = s.s88Prev := rfl
@[simp] theorem State.withNow_sm (s : State) (t : Nat) : (s.withNow t).sm = s.sm := rfl
@[simp] theorem State.withNow_ctrl (s : State) (t : Nat) : (s.withNow t).ctrl = s.ctrl := rfl
@[simp] theorem State.withNow_s88Maxint (s : State) (t : Nat) : (s.withNow t).s88Maxint = s.s88Maxint := rfl
@[simp] theorem State.withNow_evq (s : State) (t : Nat) : (s.withNow t).evq = s.evq := rfl
@[simp] theorem State.withNow_evovf (s : State) (t : Nat) : (s.withNow t).evovf = s.evovf := rfl
@[simp] theorem State.withNow_driver (s : State) (t : Nat) : (s.withNow t).driver = s.driver := rfl
@[simp] theorem State.withNow_out (s : State) (t : Nat) : (s.withNow t).out = s.out := rfl
@[simp] theorem State.withNow_agenda (s : State) (t : Nat) : (s.withNow t).agenda = s.agenda := rfl
@[simp] theorem State.withNow_drawn (s : State) (t : Nat) : (s.withNow t).drawn = s.drawn := rfl

/-! ### label -/

@[simp] theorem State.label_now (s : State) (l : OutLabel) : (s.label l).now = s.now := rfl
@[simp] theorem State.label_arena (s : State) (l : OutLabel) : (s.label l).arena = s.arena := rfl
@[simp] theorem State.label_pauseUntil (s : State) (l : OutLabel) : (s.label l).pauseUntil = s.pauseUntil := rfl
@[simp] theorem State.label_mode (s : State) (l : OutLabel) : (s.label l).mode = s.mode := rfl
@[simp] theorem State.label_target (s : State) (l : OutLabel) : (s.label l).target = s.target := rfl
@[simp] theorem State.label_targetProto (s : State) (l : OutLabel) : (s.label l).targetProto = s.targetProto := rfl
@[simp] theorem State.label_infl (s : State) (l : OutLabel) : (s.label l).infl = s.infl := rfl
@[simp] theorem State.label_pktCnt (s : State) (l : OutLabel) : (s.label l).pktCnt = s.pktCnt := rfl
@[simp] theorem State.label_s88Last (s : State) (l : OutLabel) : (s.label l).s88Last = s.s88Last := rfl
@[simp] theorem State.label_s88Cur (s : State) (l : OutLabel) : (s.label l).s88Cur = s.s88Cur := rfl
@[simp] theorem State.label_s88Prev (s : State) (l : OutLabel) : (s.label l).s88Prev = s.s88Prev := rfl
@[simp] theorem State.label_sm (s : State) (l : OutLabel) : (s.label l).sm = s.sm := rfl
@[simp] theorem State.label_ctrl (s : State) (l : OutLabel) : (s.label l).ctrl = s.ctrl := rfl
@[simp] theorem State.label_s88Maxint (s : State) (l : OutLabel) : (s.label l).s88Maxint = s.s88Maxint := rfl
@[simp] theorem State.label_evq (s : State) (l : OutLabel) : (s.label l).evq = s.evq := rfl
@[simp] theorem State.label_evovf (s : State) (l : OutLabel) : (s.label l).evovf = s.evovf := rfl
@[simp] theorem State.label_driver (s : State) (l : OutLabel) : (s.label l).driver = s.driver := rfl
@[simp] theorem State.label_out (s : State) (l : OutLabel) : (s.label l).out = s.out ++ [l] := rfl
@[simp] theorem State.label_agenda (s : State) (l : OutLabel) : (s.label l).agenda = s.agenda := rfl
@[simp] theorem State.label_drawn (s : State) (l : OutLabel) : (s.label l).drawn = s.drawn := rfl

/-! ### begin -/

@[simp] theorem State.begin_now (s : State) (f : InFlight) (j : DriverJob) : (s.begin f j).now = s.now := rfl
@[simp] theorem State.begin_arena (s : State) (f : InFlight) (j : DriverJob) : (s.begin f j).arena = s.arena := rfl
@[simp] theorem State.begin_pauseUntil (s : State) (f : InFlight) (j : DriverJob) : (s.begin f j).pauseUntil = s.pauseUntil := rfl
@[simp] theorem State.begin_mode (s : State) (f : InFlight) (j : DriverJob) : (s.begin f j).mode = s.mode := rfl
@[simp] theorem State.begin_target (s : State) (f : InFlight) (j : DriverJob) : (s.begin f j).target = s.target := rfl
@[simp] theorem State.begin_targetProto (s : State) (f : InFlight) (j : DriverJob) : (s.begin f j).targetProto = s.targetProto := rfl
@[simp] theorem State.begin_infl (s : State) (f : InFlight) (j : DriverJob) : (s.begin f j).infl = some f := rfl
@[simp] theorem State.begin_pktCnt (s : State) (f : InFlight) (j : DriverJob) : (s.begin f j).pktCnt = s.pktCnt := rfl
@[simp] theorem State.begin_s88Last (s : State) (f : InFlight) (j : DriverJob) : (s.begin f j).s88Last = s.s88Last := rfl
@[simp] theorem State.begin_s88Cur (s : State) (f : InFlight) (j : DriverJob) : (s.begin f j).s88Cur = s.s88Cur := rfl
@[simp] theorem State.begin_s88Prev (s : State) (f : InFlight) (j : DriverJob) : (s.begin f j).s88Prev = s.s88Prev := rfl
@[simp] theorem State.begin_sm (s : State) (f : InFlight) (j : DriverJob) : (s.begin f j).sm = s.sm := rfl
@[simp] theorem State.begin_ctrl (s : State) (f : InFlight) (j : DriverJob) : (s.begin f j).ctrl = s.ctrl := rfl
@[simp] theorem State.begin_s88Maxint (s : State) (f : InFlight) (j : DriverJob) : (s.begin f j).s88Maxint = s.s88Maxint := rfl
@[simp] theorem State.begin_evq (s : State) (f : InFlight) (j : DriverJob) : (s.begin f j).evq = s.evq := rfl
@[simp] theorem State.begin_evovf (s : State) (f : InFlight) (j : DriverJob) : (s.begin f j).evovf = s.evovf := rfl
@[simp] theorem State.begin_driver (s : State) (f : InFlight) (j : DriverJob) : (s.begin f j).driver = some j := rfl
@[simp] theorem State.begin_out (s : State) (f : InFlight) (j : DriverJob) : (s.begin f j).out = s.out := rfl
@[simp] theorem State.begin_agenda (s : State) (f : InFlight) (j : DriverJob) : (s.begin f j).agenda = s.agenda := rfl
@[simp] theorem State.begin_drawn (s : State) (f : InFlight) (j : DriverJob) : (s.begin f j).drawn = s.drawn := rfl

/-! ### finish -/

@[simp] theorem State.finish_now (s : State) : s.finish.now = s.now := rfl
@[simp] theorem State.finish_arena (s : State) : s.finish.arena = s.arena := rfl
@[simp] theorem State.finish_pauseUntil (s : State) : s.finish.pauseUntil = s.pauseUntil := rfl
@[simp] theorem State.finish_mode (s : State) : s.finish.mode = s.mode := rfl
@[simp] theorem State.finish_target (s : State) : s.finish.target = s.target := rfl
@[simp] theorem State.finish_targetProto (s : State) : s.finish.targetProto = s.targetProto := rfl
@[simp] theorem State.finish_infl (s : State) : s.finish.infl = none := rfl
@[simp] theorem State.finish_pktCnt (s : State) : s.finish.pktCnt = s.pktCnt := rfl
@[simp] theorem State.finish_s88Last (s : State) : s.finish.s88Last = s.s88Last := rfl
@[simp] theorem State.finish_s88Cur (s : State) : s.finish.s88Cur = s.s88Cur := rfl
@[simp] theorem State.finish_s88Prev (s : State) : s.finish.s88Prev = s.s88Prev := rfl
@[simp] theorem State.finish_sm (s : State) : s.finish.sm = s.sm := rfl
@[simp] theorem State.finish_ctrl (s : State) : s.finish.ctrl = s.ctrl := rfl
@[simp] theorem State.finish_s88Maxint (s : State) : s.finish.s88Maxint = s.s88Maxint := rfl
@[simp] theorem State.finish_evq (s : State) : s.finish.evq = s.evq := rfl
@[simp] theorem State.finish_evovf (s : State) : s.finish.evovf = s.evovf := rfl
@[simp] theorem State.finish_driver (s : State) : s.finish.driver = none := rfl
@[simp] theorem State.finish_out (s : State) : s.finish.out = s.out := rfl
@[simp] theorem State.finish_agenda (s : State) : s.finish.agenda = s.agenda := rfl
@[simp] theorem State.finish_drawn (s : State) : s.finish.drawn = s.drawn := rfl

/-! ### destroySession -/

@[simp] theorem State.destroySession_now (s : State) : s.destroySession.now = s.now := rfl
@[simp] theorem State.destroySession_arena (s : State) : s.destroySession.arena = s.arena := rfl
@[simp] theorem State.destroySession_pauseUntil (s : State) : s.destroySession.pauseUntil = s.pauseUntil := rfl
@[simp] theorem State.destroySession_mode (s : State) : s.destroySession.mode = s.mode := rfl
@[simp] theorem State.destroySession_target (s : State) : s.destroySession.target = s.target := rfl
@[simp] theorem State.destroySession_targetProto (s : State) : s.destroySession.targetProto = s.targetProto := rfl
@[simp] theorem State.destroySession_infl (s : State) : s.destroySession.infl = s.infl := rfl
@[simp] theorem State.destroySession_pktCnt (s : State) : s.destroySession.pktCnt = s.pktCnt := rfl
@[simp] theorem State.destroySession_s88Last (s : State) : s.destroySession.s88Last = s.s88Last := rfl
@[simp] theorem State.destroySession_s88Cur (s : State) : s.destroySession.s88Cur = s.s88Cur := rfl
@[simp] theorem State.destroySession_s88Prev (s : State) : s.destroySession.s88Prev = s.s88Prev := rfl
@[simp] theorem State.destroySession_sm (s : State) : s.destroySession.sm = SmRegs.idle s.sm.proto := rfl
@[simp] theorem State.destroySession_ctrl (s : State) : s.destroySession.ctrl = s.ctrl := rfl
@[simp] theorem State.destroySession_s88Maxint (s : State) : s.destroySession.s88Maxint = s.s88Maxint := rfl
@[simp] theorem State.destroySession_evq (s : State) : s.destroySession.evq = s.evq := rfl
@[simp] theorem State.destroySession_evovf (s : State) : s.destroySession.evovf = s.evovf := rfl
@[simp] theorem State.destroySession_driver (s : State) : s.destroySession.driver = s.driver := rfl
@[simp] theorem State.destroySession_out (s : State) : s.destroySession.out = s.out := rfl
@[simp] theorem State.destroySession_agenda (s : State) : s.destroySession.agenda = s.agenda := rfl
@[simp] theorem State.destroySession_drawn (s : State) : s.destroySession.drawn = s.drawn := rfl

/-! ### emit -/

@[simp] theorem emit_now (P : Params) (e : Event) (s : State) : (emit P e s).now = s.now := rfl
@[simp] theorem emit_arena (P : Params) (e : Event) (s : State) : (emit P e s).arena = s.arena := rfl
@[simp] theorem emit_pauseUntil (P : Params) (e : Event) (s : State) : (emit P e s).pauseUntil = s.pauseUntil := rfl
@[simp] theorem emit_mode (P : Params) (e : Event) (s : State) : (emit P e s).mode = s.mode := rfl
@[simp] theorem emit_target (P : Params) (e : Event) (s : State) : (emit P e s).target = s.target := rfl
@[simp] theorem emit_targetProto (P : Params) (e : Event) (s : State) : (emit P e s).targetProto = s.targetProto := rfl
@[simp] theorem emit_infl (P : Params) (e : Event) (s : State) : (emit P e s).infl = s.infl := rfl
@[simp] theorem emit_pktCnt (P : Params) (e : Event) (s : State) : (emit P e s).pktCnt = s.pktCnt := rfl
@[simp] theorem emit_s88Last (P : Params) (e : Event) (s : State) : (emit P e s).s88Last = s.s88Last := rfl
@[simp] theorem emit_s88Cur (P : Params) (e : Event) (s : State) : (emit P e s).s88Cur = s.s88Cur := rfl
@[simp] theorem emit_s88Prev (P : Params) (e : Event) (s : State) : (emit P e s).s88Prev = s.s88Prev := rfl
@[simp] theorem emit_sm (P : Params) (e : Event) (s : State) : (emit P e s).sm = s.sm := rfl
@[simp] theorem emit_ctrl (P : Params) (e : Event) (s : State) : (emit P e s).ctrl = s.ctrl := rfl
@[simp] theorem emit_s88Maxint (P : Params) (e : Event) (s : State) : (emit P e s).s88Maxint = s.s88Maxint := rfl
@[simp] theorem emit_driver (P : Params) (e : Event) (s : State) : (emit P e s).driver = s.driver := rfl
@[simp] theorem emit_out (P : Params) (e : Event) (s : State) : (emit P e s).out = s.out := rfl
@[simp] theorem emit_agenda (P : Params) (e : Event) (s : State) : (emit P e s).agenda = s.agenda := rfl
@[simp] theorem emit_drawn (P : Params) (e : Event) (s : State) : (emit P e s).drawn = s.drawn := rfl

/-! ### Slots, BUSY and the CTRL bits after an update -/

theorem State.slot_def (s : State) (k : SlotKey) : s.arena.read k = s.slot k := rfl
@[simp] theorem State.withSm_slot (s : State) (r : SmRegs) (k : SlotKey) : (s.withSm r).slot k = s.slot k := rfl
@[simp] theorem State.withMode_slot (s : State) (m : Mode) (k : SlotKey) : (s.withMode m).slot k = s.slot k := rfl
@[simp] theorem State.finish_slot (s : State) (k : SlotKey) : s.finish.slot k = s.slot k := rfl
@[simp] theorem State.begin_slot (s : State) (f : InFlight) (j : DriverJob) (k : SlotKey) :
    (s.begin f j).slot k = s.slot k := rfl
@[simp] theorem State.countPacket_slot (s : State) (k : SlotKey) : s.countPacket.slot k = s.slot k := rfl
@[simp] theorem State.countPoll_slot (s : State) (k : SlotKey) : s.countPoll.slot k = s.slot k := rfl
@[simp] theorem State.raisePause_slot (s : State) (p : Proto) (t : Nat) (k : SlotKey) :
    (s.raisePause p t).slot k = s.slot k := rfl
@[simp] theorem State.withFrame_slot (s : State) (u v : S88Vector) (k : SlotKey) :
    (s.withFrame u v).slot k = s.slot k := rfl
@[simp] theorem State.label_slot (s : State) (l : OutLabel) (k : SlotKey) : (s.label l).slot k = s.slot k := rfl
@[simp] theorem State.destroySession_slot (s : State) (k : SlotKey) : s.destroySession.slot k = s.slot k := rfl
@[simp] theorem emit_slot (P : Params) (e : Event) (s : State) (k : SlotKey) : (emit P e s).slot k = s.slot k := rfl

end Sys2Proof.Machine
end

