-- ==== Sys2Proof/Laws/Commands.lean ====
section
/-! SUPPORT. What an accepted command can do, said once for all commands (00_scope.md R13). -/

namespace Sys2Proof.Machine

/-- Whether the operands of a slot command are legal: the address by 20_memory.md R83, the payload by 10_state.md R22, R23. -/
theorem keyOperand_ok {P : Params} {proto : Option Proto} {k : Kind} {a : BitVec 14} {key : SlotKey}
    (h : keyOperand P proto k a = .ok key) : addrValid P key = true ∧ key.kind = k ∧ key.addr = a := by
  obtain ⟨p, _, rfl, hv⟩ := keyOperand_eq_ok.1 h
  exact ⟨hv, rfl, rfl⟩

/-- A bind that succeeds: its first part succeeds. -/
theorem bind_eq_ok {α β : Type} {x : Except Reason α} {f : α → Except Reason β} {b : β} :
    (x >>= f) = .ok b ↔ ∃ a, x = .ok a ∧ f a = .ok b := by
  cases x <;> simp

/-- The state an accepted command leaves is one of these. -/
theorem commandRule_cases {P : Params} {i : Instr} {s t : State} (h : commandRule P i s = .ok t) :
    t = s ∨ (∃ r v, registerValue s r = some v ∧ t = emit P (.reg r v) s) ∨ s.mode ≠ .halted ∧
    ((∃ key pl, addrValid P key = true ∧ payloadLegal P key pl ∧ t = setSlot key pl s) ∨
      (∃ key, addrValid P key = true ∧ (s.slot key).valid = true ∧ t = clearSlot key s) ∨
      (∃ p, s.target = false ∧ P.smSupport p = true ∧ t = s.withTarget true p) ∨
      (s.target = true ∧ t = s.withTarget false s.targetProto) ∨
      (∃ op cv v, op ≠ .none ∧ s.mode = .service ∧ s.target = true ∧ s.sm.op = .none ∧ 1 ≤ cv.toNat ∧
        cv.toNat ≤ P.cvMax s.sm.proto ∧ t = createSession op cv v s) ∨
      (∃ v, v &&& ctrlReservedMask = 0 ∧ t = s.withCtrl v) ∨ ∃ v, t = s.withMaxint v) := by
  cases i with
  | nop z =>
    simp only [commandRule, nopRule, bind_eq_ok, pure_ok, Except.ok.injEq] at h
    obtain ⟨_, _, h⟩ := h
    exact .inl h.symm
  | setgl p a sp d z f =>
    simp only [commandRule, setglRule, bind_eq_ok, pure_ok, Except.ok.injEq, preCheck_eq_ok, require_eq_ok,
      decide_eq_true_eq] at h
    obtain ⟨_, hm, key, hk, _, hs, _, hf, h⟩ := h
    obtain ⟨hv, hkind, _⟩ := keyOperand_ok hk
    refine .inr (.inr ⟨by simpa [exemptFromHalt] using hm.1, .inl ⟨key, .gl sp d f, hv, ⟨hkind, hs, hf⟩, h.symm⟩⟩)
  | setga p a z po ac =>
    simp only [commandRule, setgaRule, bind_eq_ok, pure_ok, Except.ok.injEq, preCheck_eq_ok] at h
    obtain ⟨_, hm, key, hk, h⟩ := h
    obtain ⟨hv, hkind, _⟩ := keyOperand_ok hk
    exact .inr (.inr ⟨by simpa [exemptFromHalt] using hm.1, .inl ⟨key, .ga po ac, hv, hkind, h.symm⟩⟩)
  | termgl p a z =>
    simp only [commandRule, termglRule, bind_eq_ok, pure_ok, Except.ok.injEq, preCheck_eq_ok, require_eq_ok] at h
    obtain ⟨_, hm, key, hk, _, hval, h⟩ := h
    exact .inr (.inr ⟨by simpa [exemptFromHalt] using hm.1, .inr (.inl ⟨key, (keyOperand_ok hk).1, hval, h.symm⟩)⟩)
  | termga p a z =>
    simp only [commandRule, termgaRule, bind_eq_ok, pure_ok, Except.ok.injEq, preCheck_eq_ok, require_eq_ok] at h
    obtain ⟨_, hm, key, hk, _, hval, h⟩ := h
    exact .inr (.inr ⟨by simpa [exemptFromHalt] using hm.1, .inr (.inl ⟨key, (keyOperand_ok hk).1, hval, h.symm⟩)⟩)
  | smenter p z =>
    simp only [commandRule, smenterRule, bind_eq_ok, pure_ok, Except.ok.injEq, preCheck_eq_ok, require_eq_ok] at h
    obtain ⟨_, hm, q, _, _, ht, _, hsup, h⟩ := h
    exact .inr (.inr ⟨by simpa [exemptFromHalt] using hm.1,
      .inr (.inr (.inl ⟨q, by simpa using ht, hsup, h.symm⟩))⟩)
  | smexit z =>
    simp only [commandRule, smexitRule, bind_eq_ok, pure_ok, Except.ok.injEq, preCheck_eq_ok, require_eq_ok] at h
    obtain ⟨_, hm, _, ht, h⟩ := h
    exact .inr (.inr ⟨by simpa [exemptFromHalt] using hm.1, .inr (.inr (.inr (.inl ⟨ht, h.symm⟩)))⟩)
  | smwrite z cv v =>
    simp only [commandRule, smwriteRule, sessionCheck, bind_eq_ok, pure_ok, Except.ok.injEq, preCheck_eq_ok, require_eq_ok,
      decide_eq_true_eq] at h
    obtain ⟨_, hm, _, ⟨_, hst, _, hop, hcv⟩, h⟩ := h
    exact .inr (.inr ⟨by simpa [exemptFromHalt] using hm.1,
      .inr (.inr (.inr (.inr (.inl ⟨.write, cv, v, by simp, hst.1, hst.2, hop, hcv.1, hcv.2, h.symm⟩))))⟩)
  | smread z cv z2 =>
    simp only [commandRule, smreadRule, sessionCheck, bind_eq_ok, pure_ok, Except.ok.injEq, preCheck_eq_ok, require_eq_ok,
      decide_eq_true_eq] at h
    obtain ⟨_, hm, _, ⟨_, hst, _, hop, hcv⟩, h⟩ := h
    exact .inr (.inr ⟨by simpa [exemptFromHalt] using hm.1,
      .inr (.inr (.inr (.inr (.inl ⟨.read, cv, 0, by simp, hst.1, hst.2, hop, hcv.1, hcv.2, h.symm⟩))))⟩)
  | cfgwr z r z2 v =>
    simp only [commandRule, cfgwrRule, bind_eq_ok, pure_ok, Except.ok.injEq, preCheck_eq_ok, require_eq_ok,
      decide_eq_true_eq] at h
    obtain ⟨_, hm, _, _, _, hmask, h⟩ := h
    refine .inr (.inr ⟨by simpa [exemptFromHalt] using hm.1, .inr (.inr (.inr (.inr (.inr ?_))))⟩)
    by_cases hr : r = 0
    · exact .inl ⟨v, hmask hr, by rw [← h, if_pos hr]⟩
    · exact .inr ⟨v, by rw [← h, if_neg hr]⟩
  | rdreg z r z2 z3 =>
    simp only [commandRule, rdregRule, bind_eq_ok] at h
    obtain ⟨_, _, h⟩ := h
    cases hv : registerValue s r with
    | none => simp [hv] at h
    | some v => exact .inr (.inl ⟨r, v, hv, by simpa [hv] using h.symm⟩)

end Sys2Proof.Machine
end

