-- ==== Sys2Proof/Laws/Encoder.lean ====
section
/-! SUPPORT. What is known of a packet's length, and an instance of the encoders that meets the whole contract of
42_encoder_mux.md R193: so the contract's clauses do not contradict each other. The instance gives every command a number and
writes the number in unary; it is no protocol's encoding. -/

namespace Sys2Proof.Machine

/-- The bound of 30_encoding.md R110 on every packet the multiplexer builds. -/
theorem mux_legalLength (P : Params) (corr : Bool) (key : SlotKey) (pl : Payload) :
    legalLength P (mux P corr key pl).bits := ⟨(P.enc _ _ _ _).nonempty, (P.enc _ _ _ _).bounded⟩

/-- The bound of 30_encoding.md R110 on every service-mode packet. -/
theorem muxSm_legalLength (P : Params) (p : Proto) (ph : SmPhase) (cv : BitVec 16) (d : SmData) :
    legalLength P (muxSm P p ph cv d).bits := ⟨(P.encSm _ _ _ _).nonempty, (P.encSm _ _ _ _).bounded⟩

/-- The wire address `Mux` gives the encoder is one the slot's address translates to. -/
theorem wireAddr_translates (P : Params) (corr : Bool) (key : SlotKey) : translatesTo P key (wireAddr P corr key) := by
  unfold translatesTo wireAddr
  split
  · rename_i h; exact .inr ⟨h.1, rfl⟩
  · exact .inl rfl

namespace UnaryEncoder

def payloadNumber : Payload → Nat
  | .gl sp d f => 2 * (sp.toNat * 2 ^ 33 + d.toNat * 2 ^ 32 + f.toNat)
  | .ga po ac => 2 * (po.toNat * 2 + ac.toNat) + 1

def dataNumber : SmData → Nat
  | .byte v => 2 * v.toNat
  | .bit b v => 2 * (b.toNat * 2 + v.toNat) + 1

def phaseNumber : SmPhase → Nat
  | .write => 0
  | .bitv => 1
  | .verify => 2

/-- The number of a command: even for a slot's packet, odd for a service-mode packet. -/
def number : Decoded → Nat
  | .registry k w pl => 2 * ((payloadNumber pl * 2 ^ 15 + (w + 4).toNat % 2 ^ 15) * 2 + kindCode k)
  | .service ph cv d => 2 * ((dataNumber d * 2 ^ 16 + cv.toNat) * 4 + phaseNumber ph) + 1

theorem payloadNumber_lt (pl : Payload) : payloadNumber pl < 2 ^ 42 := by
  cases pl with
  | gl sp d f => have h1 := sp.isLt; have h2 := d.isLt; have h3 := f.isLt; simp only [payloadNumber]; omega
  | ga po ac => have h1 := po.isLt; have h2 := ac.isLt; simp only [payloadNumber]; omega

theorem dataNumber_lt (d : SmData) : dataNumber d < 2 ^ 9 := by
  cases d with
  | byte v => have h := v.isLt; simp only [dataNumber]; omega
  | bit b v => have h1 := b.isLt; have h2 := v.isLt; simp only [dataNumber]; omega

theorem payloadNumber_injective {a b : Payload} (h : payloadNumber a = payloadNumber b) : a = b := by
  cases a with
  | gl sp d f =>
    cases b with
    | gl sp' d' f' =>
      have := d.isLt; have := d'.isLt; have := f.isLt; have := f'.isLt
      simp only [payloadNumber] at h
      simp only [Payload.gl.injEq]
      refine ⟨BitVec.eq_of_toNat_eq ?_, BitVec.eq_of_toNat_eq ?_, BitVec.eq_of_toNat_eq ?_⟩ <;> omega
    | ga po ac => simp only [payloadNumber] at h; omega
  | ga po ac =>
    cases b with
    | gl sp d f => simp only [payloadNumber] at h; omega
    | ga po' ac' =>
      have := ac.isLt; have := ac'.isLt
      simp only [payloadNumber] at h
      simp only [Payload.ga.injEq]
      refine ⟨BitVec.eq_of_toNat_eq ?_, BitVec.eq_of_toNat_eq ?_⟩ <;> omega

theorem dataNumber_injective {a b : SmData} (h : dataNumber a = dataNumber b) : a = b := by
  cases a with
  | byte v =>
    cases b with
    | byte v' =>
      simp only [dataNumber] at h
      simp only [SmData.byte.injEq]
      exact BitVec.eq_of_toNat_eq (by omega)
    | bit b v' => simp only [dataNumber] at h; omega
  | bit p v =>
    cases b with
    | byte v' => simp only [dataNumber] at h; omega
    | bit p' v' =>
      have := v.isLt; have := v'.isLt
      simp only [dataNumber] at h
      simp only [SmData.bit.injEq]
      refine ⟨BitVec.eq_of_toNat_eq ?_, BitVec.eq_of_toNat_eq ?_⟩ <;> omega

theorem phaseNumber_lt (a : SmPhase) : phaseNumber a < 4 := by cases a <;> decide

theorem phaseNumber_injective {a b : SmPhase} (h : phaseNumber a = phaseNumber b) : a = b := by
  revert h; cases a <;> cases b <;> decide

theorem kindCode_injective {a b : Kind} (h : kindCode a = kindCode b) : a = b := by
  revert h; cases a <;> cases b <;> decide

theorem kindCode_lt (a : Kind) : kindCode a < 2 := by cases a <;> decide

theorem number_lt (a : Decoded) : number a < 2 ^ 60 := by
  cases a with
  | registry k w pl => have := payloadNumber_lt pl; have := kindCode_lt k; simp only [number]; omega
  | service ph cv d =>
    have := dataNumber_lt d; have := phaseNumber_lt ph; have := cv.isLt; simp only [number]; omega

/-- The wire address of a command, where it has one, is in the range the number tells apart. -/
def WireInRange : Decoded → Prop
  | .registry _ w _ => -4 ≤ w ∧ w ≤ 16383
  | .service _ _ _ => True

theorem number_injective {a b : Decoded} (ha : WireInRange a) (hb : WireInRange b) (h : number a = number b) : a = b := by
  cases a with
  | registry k w pl =>
    cases b with
    | registry k' w' pl' =>
      have := kindCode_lt k; have := kindCode_lt k'
      simp only [WireInRange] at ha hb
      simp only [number] at h
      have h1 : kindCode k = kindCode k' := by omega
      have h2 : payloadNumber pl = payloadNumber pl' := by omega
      have h3 : w = w' := by omega
      rw [kindCode_injective h1, h3, payloadNumber_injective h2]
    | service ph cv d => simp only [number] at h; omega
  | service ph cv d =>
    cases b with
    | registry k w pl => simp only [number] at h; omega
    | service ph' cv' d' =>
      have := phaseNumber_lt ph; have := phaseNumber_lt ph'; have := cv.isLt; have := cv'.isLt
      simp only [number] at h
      have h1 : phaseNumber ph = phaseNumber ph' := by omega
      have h2 : dataNumber d = dataNumber d' := by omega
      have h3 : cv = cv' := BitVec.eq_of_toNat_eq (by omega)
      rw [phaseNumber_injective h1, h3, dataNumber_injective h2]

/-- The DCC address bytes of a command. -/
def addressBytes : Decoded → List (BitVec 8)
  | .registry _ w _ => dccAddressBytes (BitVec.ofInt 14 w)
  | .service _ _ _ => []

/-- The bytes of a DCC packet: the address, then three zero bytes for each unit of the number. -/
def dccBytes (a : Decoded) : List (BitVec 8) := addressBytes a ++ List.replicate (3 * number a) 0

/-- The bits of a packet. -/
def bits : Proto → Decoded → List Bool
  | .dcc, a => framedBytes [] [] [] (withChecksum (dccBytes a))
  | .mm, a => List.replicate (number a) true ++ [false]
  | .mfx, a => List.replicate (number a) true ++ [false]

theorem framedBytes_length (bs : List (BitVec 8)) : (framedBytes [] [] [] bs).length = 8 * bs.length := by
  induction bs with
  | nil => rfl
  | cons b bs ih =>
    simp only [framedBytes, List.flatMap_cons, List.nil_append, List.append_nil, List.length_append, List.length_cons,
      byteBits, List.length_nil] at ih ⊢
    omega

theorem addressBytes_length (a : Decoded) : (addressBytes a).length ≤ 2 := by
  cases a with
  | registry k w pl => simp only [addressBytes, dccAddressBytes]; split <;> simp
  | service ph cv d => exact Nat.zero_le _

theorem bits_length_dcc (a : Decoded) : (bits .dcc a).length = 8 * ((addressBytes a).length + 3 * number a + 1) := by
  rw [bits, framedBytes_length]
  simp [withChecksum, dccBytes, Nat.add_assoc]

theorem bits_length (p : Proto) (a : Decoded) : 1 ≤ (bits p a).length ∧ (bits p a).length ≤ 2 ^ 70 := by
  have hn := number_lt a
  cases p with
  | dcc => have := addressBytes_length a; rw [bits_length_dcc]; omega
  | mm => simp only [bits, List.length_append, List.length_replicate, List.length_singleton]; omega
  | mfx => simp only [bits, List.length_append, List.length_replicate, List.length_singleton]; omega

/-- The length alone tells the number. -/
theorem number_of_length {p : Proto} {a b : Decoded} (h : (bits p a).length = (bits p b).length) : number a = number b := by
  cases p with
  | dcc => have := addressBytes_length a; have := addressBytes_length b; rw [bits_length_dcc, bits_length_dcc] at h; omega
  | mm => simpa [bits] using h
  | mfx => simpa [bits] using h

theorem unary_prefix {n m : Nat} (h : List.replicate n true ++ [false] <+: List.replicate m true ++ [false]) : n = m := by
  have hl := h.length_le
  simp only [List.length_append, List.length_replicate, List.length_singleton] at hl
  rcases Nat.lt_or_eq_of_le (Nat.le_of_succ_le_succ hl) with hlt | heq
  · have h1 := h.getElem (i := n) (by simp)
    rw [List.getElem_append_right (by simp), List.getElem_append_left (by simpa using hlt)] at h1
    simp at h1
  · exact heq

/-- The record but for `DEC`. -/
def base : Params where
  gapDcc := 5000
  gapMm := 50000
  gapMfx := 0
  pauseUs := fun _ _ _ => 0
  addrMin := 1
  addrMaxDccGl := 16383
  addrMaxMmGl := 255
  addrMaxMfxGl := 16383
  addrMaxMmGa := 324
  gaMaxDcc := 2048
  speedMax := fun _ => 128
  funcMax := fun _ => 28
  mmShift := 4
  s88Bits := 16
  s88Npkt := 4
  smSupport := fun _ => true
  smWriteRepeat := fun _ => 3
  smRetryMax := fun _ => 2
  smAckDelayUs := fun _ => 0
  smAckWindowUs := fun _ => 0
  cvMax := fun _ => 1024
  pktMaxBits := 2 ^ 70
  evqDepth := none
  enc := fun p k w pl => ⟨bits p (.registry k w pl), (bits_length _ _).1, (bits_length _ _).2⟩
  encSm := fun p ph cv d => ⟨bits p (.service ph cv d), (bits_length _ _).1, (bits_length _ _).2⟩
  dec := fun _ _ => none

/-- The arguments of a call, as `DEC[p]` gives them back. -/
def args : EncoderCall → Decoded
  | .registry key wire pl => .registry key.kind wire pl
  | .service _ ph cv d => .service ph cv d

theorem call_bits (c : EncoderCall) : c.bits base = bits c.proto (args c) := by cases c <;> rfl

theorem call_inRange {c : EncoderCall} (h : c.legal base) : WireInRange (args c) := by
  cases c with
  | registry key wire pl =>
    have ha := key.addr.isLt
    have hs : base.mmShift = 4 := rfl
    rcases h.2.2 with hw | ⟨_, hw⟩ <;> exact ⟨by omega, by omega⟩
  | service p ph cv d => trivial

theorem args_of_length {c d : EncoderCall} (hc : c.legal base) (hd : d.legal base) (hp : c.proto = d.proto)
    (h : (c.bits base).length = (d.bits base).length) : args c = args d := by
  rw [call_bits, call_bits, hp] at h
  exact number_injective (call_inRange hc) (call_inRange hd) (number_of_length h)

open Classical in
/-- The inverse of the encoders. -/
noncomputable def inverse (p : Proto) (bs : List Bool) : Option Decoded :=
  if h : ∃ c : EncoderCall, c.legal base ∧ c.proto = p ∧ c.bits base = bs then some (args h.choose) else none

theorem inverse_bits {c : EncoderCall} (hc : c.legal base) : inverse c.proto (c.bits base) = some (args c) := by
  have h : ∃ d : EncoderCall, d.legal base ∧ d.proto = c.proto ∧ d.bits base = c.bits base := ⟨c, hc, rfl, rfl⟩
  obtain ⟨hl, hp, hb⟩ := h.choose_spec
  rw [inverse, dif_pos h, args_of_length hl hc hp (congrArg List.length hb)]

/-- The record with the inverse of its encoders. -/
noncomputable def record : Params := { base with dec := inverse }

theorem address_first {c : EncoderCall} (hc : c.legal base) (hp : c.proto = .dcc) : c.dccAddressed (dccBytes (args c)) := by
  cases c with
  | registry key wire pl =>
    have hw : wire = key.addr.toNat := by
      rcases hc.2.2 with h | ⟨h, _⟩
      · exact h
      · rw [show key.proto = .dcc from hp] at h; cases h
    refine ⟨List.replicate (3 * number (.registry key.kind wire pl)) 0, ?_⟩
    simp [dccBytes, addressBytes, args, hw, BitVec.ofInt_natCast]
  | service p ph cv d => trivial

theorem record_inRange : record.InRange where
  gaMaxDcc := ⟨Nat.le_of_ble_eq_true rfl, Nat.le_of_ble_eq_true rfl⟩
  speedMaxDcc := Nat.le_of_ble_eq_true rfl
  speedMax := fun _ => Nat.le_of_ble_eq_true rfl
  funcMax := fun _ => Nat.le_of_ble_eq_true rfl
  s88Bits := Nat.le_of_ble_eq_true rfl
  s88Npkt := Nat.le_of_ble_eq_true rfl
  smWriteRepeat := fun _ => ⟨Nat.le_of_ble_eq_true rfl, Nat.le_of_ble_eq_true rfl⟩
  smRetryMax := fun _ => Nat.le_of_ble_eq_true rfl
  cvMax := fun _ => ⟨Nat.le_of_ble_eq_true rfl, Nat.le_of_ble_eq_true rfl⟩
  pktMaxBits := Nat.one_le_two_pow
  evqDepth := fun _ h => nomatch h

theorem record_contract : EncoderContract record where
  roundTrip :=
    ⟨fun key wire pl h => inverse_bits (c := .registry key wire pl) h, fun p ph cv d h => inverse_bits (c := .service p ph cv d) h⟩
  bounds := by
    rintro (⟨key, wire, pl⟩ | ⟨p, ph, cv, d⟩) _
    · exact ⟨(record.enc _ _ _ _).nonempty, (record.enc _ _ _ _).bounded⟩
    · exact ⟨(record.encSm _ _ _ _).nonempty, (record.encSm _ _ _ _).bounded⟩
  dccBytes := by
    refine ⟨[], [], [], [], fun c hc hp => ⟨UnaryEncoder.dccBytes (args c), address_first hc hp, ?_⟩⟩
    show c.bits base = _
    rw [call_bits, hp]
    cases c <;> rfl
  mmInjective := by
    intro k x y pl h1 h2 h3 h4 h
    have hn := number_of_length (p := .mm) (congrArg List.length (show bits .mm _ = bits .mm _ from h))
    have := number_injective (a := .registry k x pl) (b := .registry k y pl) ⟨by omega, by omega⟩ ⟨by omega, by omega⟩ hn
    simpa using this
  mfxSelfDelimiting := by
    intro c d _ _ hc hd h
    change c.bits base <+: d.bits base at h
    show c.bits base = d.bits base
    rw [call_bits, call_bits, hc, hd] at h ⊢
    simp only [bits] at h ⊢
    rw [unary_prefix h]
  mfxVariableLength := by
    have legal : ∀ a : BitVec 14, 1 ≤ a.toNat → a.toNat ≤ 16383 →
        (EncoderCall.registry ⟨.mfx, .gl, a⟩ a.toNat (.gl 0 0 0)).legal base :=
      fun a h1 h2 => ⟨⟨h1, h2⟩, ⟨rfl, Nat.zero_le _, by simp [funcsWithin]⟩, .inl rfl⟩
    have h1 := legal 1 (by decide) (by decide)
    have h2 := legal 2 (by decide) (by decide)
    refine ⟨.registry ⟨.mfx, .gl, 1⟩ _ (.gl 0 0 0), .registry ⟨.mfx, .gl, 2⟩ _ (.gl 0 0 0), h1, h2, rfl, rfl, fun h => ?_⟩
    have := args_of_length h1 h2 rfl h
    simp [args] at this

end UnaryEncoder

/-- Some record within the ranges of Table R9 meets the whole contract. -/
theorem encoderContract_satisfiable : ∃ P : Params, P.InRange ∧ EncoderContract P :=
  ⟨UnaryEncoder.record, UnaryEncoder.record_inRange, UnaryEncoder.record_contract⟩

end Sys2Proof.Machine
end

