-- ==== Sys2Proof/Laws/Ops.lean ====
section
/-! SUPPORT. For each shared operation, one lemma that says once everything it can do. -/

namespace Sys2Proof.Machine

/-! ### Emission, rejection, halt -/

/-- `emit` with room: the word goes to the tail, and nothing else changes (60_exceptions.md R326). -/
theorem emit_of_room {P : Params} {s : State} (e : Event) (h : hasRoom P s.evq.length = true) :
    emit P e s = { s with evq := s.evq ++ [e.word] } := by
  simp [emit, h]

/-- `emit` with the queue full: the word is dropped and `EVOVF` set, and nothing else changes (60_exceptions.md R326). -/
theorem emit_of_full {P : Params} {s : State} (e : Event) (h : hasRoom P s.evq.length = false) :
    emit P e s = { s with evovf := true } := by
  simp [emit, h]

/-- Room is what the capacity leaves (10_state.md R43). -/
theorem hasRoom_iff {P : Params} {n : Nat} : hasRoom P n = true ↔ ∀ d, P.evqDepth = some d → n < d := by
  unfold hasRoom
  cases h : P.evqDepth with
  | none => simp
  | some d => simp

/-- A command's two outcomes (00_scope.md R13). -/
@[simp] theorem settle_ok (P : Params) (w : Word) (s t : State) : settle P w s (.ok t) = t := rfl

@[simp] theorem settle_error (P : Params) (w : Word) (s : State) (r : Reason) :
    settle P w s (.error r) = reject P r w s := rfl

/-- A rejection is the emission of its event (60_exceptions.md R311). -/
theorem reject_eq (P : Params) (r : Reason) (w : Word) (s : State) :
    reject P r w s = emit P (.invalid r (field w 44 20)) s := rfl

/-- The halt: the mode, then the event (60_exceptions.md R321). -/
theorem halt_eq (P : Params) (c : TxClass) (s : State) :
    halt P c s = emit P (.driverFault c) { s with mode := .halted } := rfl

@[simp] theorem halt_mode (P : Params) (c : TxClass) (s : State) : (halt P c s).mode = .halted := rfl
@[simp] theorem halt_now (P : Params) (c : TxClass) (s : State) : (halt P c s).now = s.now := rfl
@[simp] theorem halt_slot (P : Params) (c : TxClass) (s : State) (k : SlotKey) : (halt P c s).slot k = s.slot k := rfl

/-- A queue within its capacity stays within it (70_reset_and_hazards.md R355). -/
theorem emit_queue {P : Params} {s : State} (e : Event) (h : ∀ d, P.evqDepth = some d → s.evq.length ≤ d) :
    ∀ d, P.evqDepth = some d → (emit P e s).evq.length ≤ d := by
  intro d hd
  by_cases hr : hasRoom P s.evq.length = true
  · have := hasRoom_iff.1 hr d hd
    simpa [emit_of_room e hr] using this
  · simpa [emit_of_full e (by simpa using hr)] using h d hd

/-- Several emissions change only the queue and its flag. -/
theorem emitAll_frame (P : Params) (es : List Event) (s : State) :
    ∃ q o, emitAll P es s = { s with evq := q, evovf := o } := by
  induction es generalizing s with
  | nil => exact ⟨s.evq, s.evovf, rfl⟩
  | cons e es ih =>
    obtain ⟨q, o, h⟩ := ih (emit P e s)
    exact ⟨q, o, by simpa [emitAll, emit] using h⟩

theorem emitAll_queue {P : Params} {s : State} (es : List Event)
    (h : ∀ d, P.evqDepth = some d → s.evq.length ≤ d) :
    ∀ d, P.evqDepth = some d → (emitAll P es s).evq.length ≤ d := by
  induction es generalizing s with
  | nil => exact h
  | cons e es ih => exact ih (emit_queue e h)

/-! ### Triggers, transactions, the mode switch -/

/-- A trigger shows a label or does nothing (60_exceptions.md R338). -/
theorem trig_eq (c : TxClass) (s : State) :
    trig c s = { s with out := if s.trigEnabled c then s.out ++ [.trig c] else s.out } := by
  unfold trig
  split <;> rfl

/-- MODE_SWITCH into SERVICE writes MODE and SM_PROTO (43_service_mode.md R226). -/
theorem switchIn_eq (s : State) :
    switchIn s = { s with mode := .service, sm := { s.sm with proto := s.targetProto } } := rfl

/-- MODE_SWITCH out of SERVICE with no session (43_service_mode.md R227). -/
theorem switchOut_of_none {P : Params} {s : State} (h : s.sm.op = .none) :
    switchOut P s = { s with mode := .normal, sm := SmRegs.idle s.sm.proto } := by
  simp [switchOut, h, State.destroySession, State.withSm, State.withMode]

/-- MODE_SWITCH out of SERVICE with a session reports it aborted (43_service_mode.md R227). -/
theorem switchOut_of_session {P : Params} {s : State} (h : s.sm.op ≠ .none) :
    switchOut P s =
      { emit P (.smResult s.sm.proto .aborted s.sm.op s.sm.cv 0) s with
        mode := .normal, sm := SmRegs.idle s.sm.proto } := by
  simp [switchOut, h, State.destroySession, State.withSm, State.withMode]

/-! ### Counters -/

/-- PKTCNT counts up to 65535 and stays there (10_state.md R36). -/
theorem satInc_toNat (c : BitVec 16) : (satInc c).toNat = min (c.toNat + 1) 65535 := by
  have hc := c.isLt
  by_cases h : c = 65535
  · subst h
    rfl
  · have hne : c.toNat ≠ 65535 := fun hn => h (BitVec.eq_of_toNat_eq (by simpa using hn))
    have h1 : (1 : BitVec 16).toNat = 1 := rfl
    simp only [satInc, h, if_false, BitVec.toNat_add, h1]
    omega

theorem setBit_getLsbD (b : BitVec 8) (i : BitVec 3) (v : Bool) (j : Nat) (hj : j < 8) :
    (setBit b i v).getLsbD j = if j = i.toNat then v else b.getLsbD j := by
  cases v <;> simp [setBit, hj] <;>
    by_cases h : j = i.toNat <;> simp [h] <;> omega

end Sys2Proof.Machine
end

