-- ==== Sys2Proof/Laws/Parametric.lean ====
section
/-! SUPPORT. The machine is its parametric form at the machine's parameters. -/

namespace Sys2Proof.Machine

/-- `exec` is `execWith` at `params`. -/
theorem exec_eq (i : Instr) (s : State) : exec i s = .next (execWith params i s) := by cases i <;> rfl

/-- `step` is `stepWith` at `params`: every step has a next state. -/
theorem step_eq (s : State) : step s = .next (stepWith params s) := by
  unfold step stepWith
  cases nextOffer s with
  | host w =>
    simp only [agentStep, hostStep]
    cases decode w with
    | ok i => exact exec_eq i (takeOffer s)
    | error e => rfl
  | pop => rfl
  | psb => rfl
  | driver d => rfl
  | clock dt => rfl
  | reset => rfl

/-- What `takeOffer` leaves as it was. -/
theorem takeOffer_eq (s : State) :
    ∃ ag n, takeOffer s = { s with agenda := ag, drawn := n, out := [] } := by
  unfold takeOffer
  cases s.agenda with
  | nil => exact ⟨_, _, rfl⟩
  | cons a rest => exact ⟨_, _, rfl⟩

end Sys2Proof.Machine
end

