-- ==== Sys2Proof/Laws/Params.lean ====
section
/-! SUPPORT. The machine's parameters meet every numeric constraint of 00_scope.md Table R9, whatever the uninterpreted
constants are. -/

namespace Sys2Proof.Machine

theorem params_inRange : params.InRange where
  gaMaxDcc := ⟨Nat.le_add_left _ _, by have := Config.gaMaxDccLessOne.isLt; simp only [params]; omega⟩
  speedMaxDcc := Nat.le_add_left _ _
  speedMax := by
    intro p
    have h1 := Config.speedMaxDccLess128.isLt
    have h2 := Config.speedMaxMm.isLt
    have h3 := Config.speedMaxMfx.isLt
    cases p <;> simp only [params] <;> omega
  funcMax p := Nat.le_of_lt_succ (Config.funcMax p).isLt
  s88Bits := Nat.le_of_lt_succ Config.s88Bits.isLt
  s88Npkt := Nat.le_of_lt_succ Config.s88Npkt.isLt
  smWriteRepeat p := ⟨Nat.le_add_left _ _, (Config.smWriteRepeatLessOne p).isLt⟩
  smRetryMax p := Nat.le_of_lt_succ (Config.smRetryMax p).isLt
  cvMax p := ⟨Nat.le_add_left _ _, (Config.cvMaxLessOne p).isLt⟩
  pktMaxBits := Nat.le_add_left _ _
  evqDepth := by
    intro d h
    simp only [params, Option.map_eq_some_iff] at h
    obtain ⟨n, _, rfl⟩ := h
    omega

@[simp] theorem params_gapDcc : params.gapDcc = 5000 := rfl
@[simp] theorem params_gapMm : params.gapMm = 50000 := rfl
@[simp] theorem params_mmShift : params.mmShift = 4 := rfl
@[simp] theorem params_addrMin : params.addrMin = 1 := rfl
@[simp] theorem params_addrMaxDccGl : params.addrMaxDccGl = 16383 := rfl
@[simp] theorem params_addrMaxMmGl : params.addrMaxMmGl = 255 := rfl
@[simp] theorem params_addrMaxMfxGl : params.addrMaxMfxGl = 16383 := rfl
@[simp] theorem params_addrMaxMmGa : params.addrMaxMmGa = 324 := rfl

end Sys2Proof.Machine
end

