-- ==== Sys2Proof/Laws/PerInstr.lean ====
section
/-! SUPPORT. The per-instruction family `Opcode`: bits 63:60 of every command's word are its opcode (30_encoding.md R100,
Table R103). -/

namespace Sys2Proof.Laws

/-- Bits 63:60 of the command's word are the opcode of Table R103. -/
def Opcode.Statement (i : Instr) : Prop := field (encode i) 60 4 = opcodeOf i

theorem Opcode.nop (z : BitVec 60) : Opcode.Statement (.nop z) := by
  unfold Opcode.Statement field encode
  simp (disch := decide) only [BitVec.extractLsb'_append_eq_of_le, Nat.reduceSub, BitVec.extractLsb'_eq_self]
  rfl

theorem Opcode.setgl (p : Option Proto) (a : BitVec 14) (sp : BitVec 8) (d : BitVec 1) (z : BitVec 3) (f : BitVec 32) : Opcode.Statement (.setgl p a sp d z f) := by
  unfold Opcode.Statement field encode
  simp (disch := decide) only [BitVec.extractLsb'_append_eq_of_le, Nat.reduceSub, BitVec.extractLsb'_eq_self]
  rfl

theorem Opcode.setga (p : Option Proto) (a : BitVec 14) (z : BitVec 42) (po ac : BitVec 1) : Opcode.Statement (.setga p a z po ac) := by
  unfold Opcode.Statement field encode
  simp (disch := decide) only [BitVec.extractLsb'_append_eq_of_le, Nat.reduceSub, BitVec.extractLsb'_eq_self]
  rfl

theorem Opcode.termgl (p : Option Proto) (a : BitVec 14) (z : BitVec 44) : Opcode.Statement (.termgl p a z) := by
  unfold Opcode.Statement field encode
  simp (disch := decide) only [BitVec.extractLsb'_append_eq_of_le, Nat.reduceSub, BitVec.extractLsb'_eq_self]
  rfl

theorem Opcode.termga (p : Option Proto) (a : BitVec 14) (z : BitVec 44) : Opcode.Statement (.termga p a z) := by
  unfold Opcode.Statement field encode
  simp (disch := decide) only [BitVec.extractLsb'_append_eq_of_le, Nat.reduceSub, BitVec.extractLsb'_eq_self]
  rfl

theorem Opcode.smenter (p : Option Proto) (z : BitVec 58) : Opcode.Statement (.smenter p z) := by
  unfold Opcode.Statement field encode
  simp (disch := decide) only [BitVec.extractLsb'_append_eq_of_le, Nat.reduceSub, BitVec.extractLsb'_eq_self]
  rfl

theorem Opcode.smexit (z : BitVec 60) : Opcode.Statement (.smexit z) := by
  unfold Opcode.Statement field encode
  simp (disch := decide) only [BitVec.extractLsb'_append_eq_of_le, Nat.reduceSub, BitVec.extractLsb'_eq_self]
  rfl

theorem Opcode.smwrite (z : BitVec 36) (cv : BitVec 16) (v : BitVec 8) : Opcode.Statement (.smwrite z cv v) := by
  unfold Opcode.Statement field encode
  simp (disch := decide) only [BitVec.extractLsb'_append_eq_of_le, Nat.reduceSub, BitVec.extractLsb'_eq_self]
  rfl

theorem Opcode.smread (z : BitVec 36) (cv : BitVec 16) (z2 : BitVec 8) : Opcode.Statement (.smread z cv z2) := by
  unfold Opcode.Statement field encode
  simp (disch := decide) only [BitVec.extractLsb'_append_eq_of_le, Nat.reduceSub, BitVec.extractLsb'_eq_self]
  rfl

theorem Opcode.cfgwr (z : BitVec 16) (r : BitVec 4) (z2 : BitVec 8) (v : BitVec 32) : Opcode.Statement (.cfgwr z r z2 v) := by
  unfold Opcode.Statement field encode
  simp (disch := decide) only [BitVec.extractLsb'_append_eq_of_le, Nat.reduceSub, BitVec.extractLsb'_eq_self]
  rfl

theorem Opcode.rdreg (z : BitVec 16) (r : BitVec 4) (z2 : BitVec 8) (z3 : BitVec 32) : Opcode.Statement (.rdreg z r z2 z3) := by
  unfold Opcode.Statement field encode
  simp (disch := decide) only [BitVec.extractLsb'_append_eq_of_le, Nat.reduceSub, BitVec.extractLsb'_eq_self]
  rfl

end Sys2Proof.Laws
end

