-- ==== Sys2Proof/Laws/Scheduler.lean ====
section
/-! SUPPORT. What the choice of the PSB's step can answer, said once (41_scheduler.md R156). -/

namespace Sys2Proof.Machine

/-- The first enabled step of the list of 41_scheduler.md R156, with the conditions it was taken under. -/
theorem psbRuleAt_cases {P : Params} {s : State} {t : Nat} {r : PsbRule} (h : psbRuleAt P s t = some r) :
    s.infl = none ∧
      ((s.mode = .normal ∧ s.target = true ∧ r = .switchIn) ∨
       (s.mode = .service ∧ s.target = false ∧ r = .switchOut) ∨
       (s88Due P s t = true ∧ s88Allowed s = true ∧ r = .s88Start) ∨
       (s.mode = .normal ∧ s.target = false ∧ (s88Due P s t && s88Allowed s) = false ∧
         ∃ k, best s (cand s t) = some k ∧ r = .schedSelect k) ∨
       (s.mode = .service ∧ s.target = true ∧ (s88Due P s t && s88Allowed s) = false ∧
         sequencerRule s t = some r)) := by
  unfold psbRuleAt at h
  cases hi : s.infl with
  | some f => simp [State.busy, hi] at h
  | none =>
    refine ⟨rfl, ?_⟩
    simp only [State.busy, hi, Option.isSome_none, Bool.false_eq_true, if_false] at h
    cases hm : s.mode <;> cases ht : s.target <;> simp only [hm, ht, Bool.false_eq_true, if_false, if_true, Bool.not_true,
      Bool.not_false, reduceCtorEq, Option.some.injEq] at h
    · by_cases hd : (s88Due P s t && s88Allowed s) = true
      · rw [if_pos hd] at h
        cases h
        exact .inr (.inr (.inl ⟨(Bool.and_eq_true _ _ ▸ hd).1, (Bool.and_eq_true _ _ ▸ hd).2, rfl⟩))
      · rw [if_neg hd, Option.map_eq_some_iff] at h
        obtain ⟨k, hk, rfl⟩ := h
        exact .inr (.inr (.inr (.inl ⟨rfl, rfl, by simpa using hd, k, hk, rfl⟩)))
    · exact .inl ⟨rfl, rfl, h.symm⟩
    · exact .inr (.inl ⟨rfl, rfl, h.symm⟩)
    · by_cases hd : (s88Due P s t && s88Allowed s) = true
      · rw [if_pos hd] at h
        cases h
        exact .inr (.inr (.inl ⟨(Bool.and_eq_true _ _ ▸ hd).1, (Bool.and_eq_true _ _ ▸ hd).2, rfl⟩))
      · rw [if_neg hd] at h
        exact .inr (.inr (.inr (.inr ⟨rfl, rfl, by simpa using hd, h⟩)))

/-- The sequencer's step is the one of its state (43_service_mode.md R230). -/
theorem sequencerRule_cases {s : State} {t : Nat} {r : PsbRule} (h : sequencerRule s t = some r) :
    (s.sm.state = .selectop ∧ r = .selectOp) ∨ (s.sm.state = .transmit ∧ r = .transmit) ∨
    (s.sm.state = .sample ∧ s.sm.deadline ≤ t ∧ r = .sample) ∨ (s.sm.state = .retry ∧ r = .retry) ∨
    (s.sm.state = .done ∧ r = .done) ∨ (s.sm.state = .failed ∧ r = .failed) := by
  unfold sequencerRule at h
  cases hs : s.sm.state <;> simp only [hs, reduceCtorEq, Option.some.injEq] at h
  · exact .inl ⟨rfl, h.symm⟩
  · exact .inr (.inl ⟨rfl, h.symm⟩)
  · split at h
    · cases h
      exact .inr (.inr (.inl ⟨rfl, by assumption, rfl⟩))
    · cases h
  · exact .inr (.inr (.inr (.inl ⟨rfl, h.symm⟩)))
  · exact .inr (.inr (.inr (.inr (.inl ⟨rfl, h.symm⟩))))
  · exact .inr (.inr (.inr (.inr (.inr ⟨rfl, h.symm⟩))))

/-- `best` reads the state through its slots only. -/
theorem best_congr {s u : State} (h : s.arena = u.arena) (C : List SlotKey) : best s C = best u C := by
  have hk : ∀ k, sortKey s k = sortKey u k := fun k => by simp only [sortKey, State.slot, h]
  induction C with
  | nil => rfl
  | cons k ks ih => simp only [best, ih, hk]

/-- `Cand(t)` reads the arena and the pauses only. -/
theorem cand_congr {s u : State} (ha : s.arena = u.arena) (hp : s.pauseUntil = u.pauseUntil) (t : Nat) :
    cand s t = cand u t := by
  have he : eligible s t = eligible u t := by
    funext k
    simp only [eligible, State.slot, ha, hp]
    rfl
  simp only [cand, ha, he]

/-- The choice of the PSB's step does not read the model's own fields. -/
theorem psbRuleAt_offer (P : Params) (s : State) (t : Nat) (ag : List AgentStep) (n : Nat) (o : List OutLabel) :
    psbRuleAt P { s with agenda := ag, drawn := n, out := o } t = psbRuleAt P s t := by
  unfold psbRuleAt
  rw [cand_congr (s := { s with agenda := ag, drawn := n, out := o }) (u := s) rfl rfl,
    best_congr (s := { s with agenda := ag, drawn := n, out := o }) (u := s) rfl]
  rfl

end Sys2Proof.Machine
end

