-- ==== Sys2Proof/Machine/Assembler.lean ====
section
/-! DEFINITION. The assembler notation of 30_encoding.md R112: one line, one command word. No step of the machine uses
it. -/

namespace Sys2Proof.Machine

/-- A line cut at its spaces. -/
def cutAtSpaces : List Char → List Char → List (List Char)
  | word, [] => if word.isEmpty then [] else [word.reverse]
  | word, c :: cs =>
    if c = ' ' then (if word.isEmpty then cutAtSpaces [] cs else word.reverse :: cutAtSpaces [] cs)
    else cutAtSpaces (c :: word) cs

/-- The value of a digit, decimal or hexadecimal. -/
def digitValue (c : Char) : Option Nat :=
  let n := c.toNat
  if 48 ≤ n ∧ n ≤ 57 then some (n - 48)
  else if 65 ≤ n ∧ n ≤ 70 then some (n - 55)
  else if 97 ≤ n ∧ n ≤ 102 then some (n - 87)
  else none

/-- The number some digits spell in a base, read on from a value. -/
def readDigits (base : Nat) : Nat → List Char → Option Nat
  | acc, [] => some acc
  | acc, c :: cs =>
    match digitValue c with
    | some d => if d < base then readDigits base (acc * base + d) cs else none
    | none => none

/-- A number: decimal, or hexadecimal with the prefix 0x (00_scope.md R10). -/
def readNumber : List Char → Option Nat
  | '0' :: 'x' :: c :: cs => readDigits 16 0 (c :: cs)
  | c :: cs => readDigits 10 0 (c :: cs)
  | [] => none

/-- A numeric operand that fits its field. -/
def readField (width : Nat) (tok : String) : Option (BitVec width) :=
  match readNumber tok.toList with
  | some n => if n < 2 ^ width then some (BitVec.ofNat width n) else none
  | none => none

/-- `<proto>`: DCC, MM, MFX, or 0, 1, 2 (30_encoding.md R112). -/
def readProto (tok : String) : Option Proto :=
  if tok = "DCC" then some .dcc
  else if tok = "MM" then some .mm
  else if tok = "MFX" then some .mfx
  else
    match readField 2 tok with
    | some c => protoOfCode c
    | none => none

/-- `<dir>`: FWD is 1, REV is 0 (30_encoding.md R112). -/
def readDir (tok : String) : Option (BitVec 1) :=
  if tok = "FWD" then some 1 else if tok = "REV" then some 0 else none

/-- `<reg>`: a register's name or its index (30_encoding.md R112). -/
def readReg (tok : String) : Option (BitVec 4) :=
  if tok = "CTRL" then some 0
  else if tok = "S88_MAXINT" then some 1
  else if tok = "STATUS" then some 2
  else if tok = "PKTCNT" then some 3
  else if tok = "NOW_LO" then some 4
  else if tok = "NOW_HI" then some 5
  else readField 4 tok

/-- The command of a line's tokens (30_encoding.md Table R112). -/
def parseTokens : List String → Option Instr
  | ["NOP"] => some (.nop 0)
  | ["SETGL", p, a, sp, d, f] => do
    let p ← readProto p
    let a ← readField 14 a
    let sp ← readField 8 sp
    let d ← readDir d
    let f ← readField 32 f
    pure (.setgl (some p) a sp d 0 f)
  | ["SETGA", p, a, po, ac] => do
    let p ← readProto p
    let a ← readField 14 a
    let po ← readField 1 po
    let ac ← readField 1 ac
    pure (.setga (some p) a 0 po ac)
  | ["TERMGL", p, a] => do
    let p ← readProto p
    let a ← readField 14 a
    pure (.termgl (some p) a 0)
  | ["TERMGA", p, a] => do
    let p ← readProto p
    let a ← readField 14 a
    pure (.termga (some p) a 0)
  | ["SMENTER", p] => do
    let p ← readProto p
    pure (.smenter (some p) 0)
  | ["SMEXIT"] => some (.smexit 0)
  | ["SMWRITE", cv, v] => do
    let cv ← readField 16 cv
    let v ← readField 8 v
    pure (.smwrite 0 cv v)
  | ["SMREAD", cv] => do
    let cv ← readField 16 cv
    pure (.smread 0 cv 0)
  | ["CFGWR", r, v] => do
    let r ← readReg r
    let v ← readField 32 v
    pure (.cfgwr 0 r 0 v)
  | ["RDREG", r] => do
    let r ← readReg r
    pure (.rdreg 0 r 0 0)
  | _ => none

/-- The word of a line (30_encoding.md R112); none for a line that is not of the notation. -/
def assemble (line : String) : Option Word :=
  (parseTokens ((cutAtSpaces [] line.toList).map String.ofList)).map encode

end Sys2Proof.Machine
end

