-- ==== Sys2Proof/Tests/Slice0.lean ====
section
/-! SUPPORT. The author's tests: ill-formed commands, words written out from 30_encoding.md, single steps with the parameters
and answers of 95_test_vectors.md, and one witness of each statement's hypotheses. -/

namespace Sys2Proof.Tests

open Sys2Proof.Machine

/-! ### WellFormed: each check refuses a command -/

theorem test_wf_refuses_zero_field : (Instr.setgl (some .dcc) 3 128 1 1 0).wf = false := by decide
theorem test_wf_refuses_proto : (Instr.setga (some .mfx) 1 0 0 0).wf = false ∧ (Instr.smenter none 0).wf = false := by decide
theorem test_wf_refuses_reg : (Instr.cfgwr 0 2 0 0).wf = false ∧ (Instr.rdreg 0 6 0 0).wf = false := by decide
theorem test_wf_accepts : (Instr.setgl (some .dcc) 3 128 1 0 0).wf = true := by decide

/-! ### Decode: one word for each command, from 30_encoding.md R101, R103 and 95_test_vectors.md -/

theorem test_decode_nop : decode 0x0800000000000001 = .ok (.nop 0x800000000000001) := by decide
theorem test_decode_setgl : decode 0x1404E0EF0000001F = .ok (.setgl (some .mm) 78 14 1 7 0x1F) := by decide
theorem test_decode_setga : decode 0x2000C80000000003 = .ok (.setga (some .dcc) 12 0x20000000000 1 1) := by decide
theorem test_decode_termgl : decode 0x3C00100000000001 = .ok (.termgl none 1 1) := by decide
theorem test_decode_termga : decode 0x4414400000000000 = .ok (.termga (some .mm) 324 0) := by decide
theorem test_decode_smenter : decode 0x5800100000000000 = .ok (.smenter (some .mfx) 0x100000000000) := by decide
theorem test_decode_smexit : decode 0x6400000000000000 = .ok (.smexit 0x400000000000000) := by decide
theorem test_decode_smwrite : decode 0x70000000010400FF = .ok (.smwrite 1 1024 255) := by decide
theorem test_decode_smread : decode 0x8000000000001D01 = .ok (.smread 0 29 1) := by decide
theorem test_decode_cfgwr : decode 0x9000110100004E20 = .ok (.cfgwr 1 1 1 20000) := by decide
theorem test_decode_rdreg : decode 0xA000050000000001 = .ok (.rdreg 0 5 0 1) := by decide
theorem test_decode_illegal : decode 0xB000000000000000 = .error .badOpcode := by decide

/-! ### The assembler notation (30_encoding.md Table R112, 95_test_vectors.md section 6) -/

theorem test_assemble : [("SETGL DCC 16383 128 FWD 0x1FFFFFFF", 0x13FFF8081FFFFFFF), ("SETGA MM 324 0 1", 0x2414400000000001),
    ("SMWRITE 29 6", 0x7000000000001D06), ("CFGWR S88_MAXINT 100000", 0x90000100000186A0), ("RDREG NOW_HI", 0xA000050000000000),
    ("TERMGL DCC 3", 0x3000300000000000), ("SMEXIT", 0x6000000000000000)].all
      (fun r => assemble r.1 == some (BitVec.ofNat 64 r.2)) = true := by decide
theorem test_assemble_refuses : assemble "SETGL DCC 16384 0 FWD 0" = none ∧ assemble "HALT" = none := by decide

/-! ### The reference DCC bytes (42_encoder_mux.md R208) -/

theorem test_dcc_service_bytes :
    dccServiceBytes .write 29 (.byte 6) = [0x7C, 0x1C, 0x06, 0x66] ∧
    dccServiceBytes .verify 29 (.byte 6) = [0x74, 0x1C, 0x06, 0x6E] ∧
    dccServiceBytes .bitv 29 (.bit 1 1) = [0x78, 0x1C, 0xE9, 0x8D] := by decide

/-! ### Single steps under TVCFG (95_test_vectors.md section 1) -/

/-- TVCFG. The encoders are any (the vectors name a packet by the encoder's arguments); this MM encoder is injective. -/
def vectorConfig : Params where
  gapDcc := 5000
  gapMm := 50000
  gapMfx := 10000
  pauseUs := fun p k pl =>
    match p, k, pl with
    | .mm, .gl, .gl _ _ f => if f.toNat >>> 1 ≠ 0 then 6000 else 4000
    | .mm, _, _ => 4000
    | _, _, _ => 0
  addrMin := 1
  addrMaxDccGl := 16383
  addrMaxMmGl := 255
  addrMaxMfxGl := 16383
  addrMaxMmGa := 324
  gaMaxDcc := 2048
  speedMax := fun p => match p with | .dcc => 128 | .mm => 14 | .mfx => 127
  funcMax := fun p => match p with | .dcc => 28 | .mm => 4 | .mfx => 15
  mmShift := 4
  s88Bits := 16
  s88Npkt := 4
  smSupport := fun p => p == .dcc
  smWriteRepeat := fun _ => 3
  smRetryMax := fun _ => 2
  smAckDelayUs := fun _ => 100
  smAckWindowUs := fun _ => 6000
  cvMax := fun _ => 1024
  pktMaxBits := 256
  evqDepth := some 16
  enc := fun _ _ w _ => ⟨(List.range 15).map (w + 3).toNat.testBit, by simp, by simp⟩
  encSm := fun _ _ _ _ => ⟨[true], by simp, by simp⟩
  dec := fun _ _ => none

def keyDcc3 : SlotKey := ⟨.dcc, .gl, 3⟩
def keyDccGa12 : SlotKey := ⟨.dcc, .ga, 12⟩

/-- After `SETGL DCC 3 128 FWD 0x0` at NOW = 0. -/
def oneSlot : State := State.reset.writeSlot keyDcc3 ⟨true, true, 0, .gl 128 1 0⟩

/-- SERVICE with no session. -/
def inService : State := { State.reset with mode := .service, target := true }

/-- SERVICE with a write of CV 29 just created. -/
def withSession : State :=
  { inService with sm := ⟨.dcc, .selectop, .write, 29, 6, .write, 0, 0, 0, 0, 0⟩ }

def isHalted : State := { State.reset with mode := .halted }

/-- The step an agent takes under TVCFG. -/
def act (a : AgentStep) (s : State) : State := agentStep vectorConfig a s

/-- 95_test_vectors.md section 7: rejections in the state after reset, with the event each queues. -/
theorem test_rejections_after_reset :
    [(0xB000000000000000, 0x11B0000000000000), (0xFFFFFFFFFFFFFFFF, 0x11FFFFF000000000), (0x0800000000000000, 0x1308000000000000),
     (0x1000380C00000000, 0x1310003000000000), (0x2000C80000000003, 0x132000C000000000), (0x3000300000000001, 0x1330003000000000),
     (0x5000100000000000, 0x1350001000000000), (0x9000100000000001, 0x1390001000000000), (0xA000020000000001, 0x13A0000000000000),
     (0x9000000000000040, 0x1390000000000000), (0x1C00300000000000, 0x141C003000000000), (0x4800100000000000, 0x1448001000000000),
     (0x1410000000000000, 0x1514100000000000), (0x2414500000000001, 0x1524145000000000), (0x1000381800000000, 0x1610003000000000),
     (0x1000300820000000, 0x1710003000000000), (0x4000C00000000000, 0x184000C000000000),
     (0x6000000000000000, 0x1960000000000000), (0x7000000000001D06, 0x1970000000000000), (0x5400000000000000, 0x1A54000000000000),
     (0xA000090000000000, 0x1DA0000000000000)].all
      (fun r => (act (.host (BitVec.ofNat 64 r.1)) State.reset).evq == [BitVec.ofNat 64 r.2]) = true := by decide
/-- 95_test_vectors.md section 7: check 2 precedes check 5; and rejections in SERVICE. -/
theorem test_rejections_in_modes :
    (act (.host 0x1000000000000000) isHalted).evq = [0x1210000000000000] ∧
    (act (.host 0x8000000000000000) inService).evq = [0x1C80000000000000] ∧
    (act (.host 0x7000000000000101) withSession).evq = [0x1B70000000000000] := by decide

/-- 40_registry_commands.md R131. -/
theorem test_nop : act (.host 0) isHalted = isHalted := rfl
/-- 40_registry_commands.md R133, the example. -/
theorem test_setgl : (act (.host 0x1000380800000000) State.reset).slot keyDcc3 = ⟨true, true, 0, .gl 128 1 0⟩ := by decide
/-- 40_registry_commands.md R135: the same command again, the gap kept. -/
theorem test_setgl_again :
    (act (.host 0x1000380800000000) (({ State.reset with now := 2000 } : State).writeSlot keyDcc3
      ⟨true, false, 6500, .gl 128 1 0⟩)).slot keyDcc3 = ⟨true, true, 6500, .gl 128 1 0⟩ := by decide
/-- 40_registry_commands.md R136, the example. -/
theorem test_setga :
    (act (.host 0x2000C00000000003) { State.reset with now := 7000 }).slot keyDccGa12 = ⟨true, true, 7000, .ga 1 1⟩ := by decide
/-- 40_registry_commands.md R137, the example. -/
theorem test_termgl : (act (.host 0x3000300000000000) oneSlot).arena = [] := by decide
/-- 40_registry_commands.md R138, R139: `eligible_at` is kept. -/
theorem test_termga :
    (act (.host 0x4000C00000000000) (State.reset.writeSlot keyDccGa12 ⟨true, true, 900, .ga 1 0⟩)).slot keyDccGa12 =
      ⟨false, false, 900, .ga 0 0⟩ := by decide
/-- 43_service_mode.md R221, the example: STATUS reads TARGET, then TARGET and SERVICE after the switch. -/
theorem test_smenter :
    (act (.host 0x5000000000000000) State.reset).statusWord = 0x8 ∧
    (act .psb (act (.host 0x5000000000000000) State.reset)).statusWord = 0x9 := by decide
/-- 43_service_mode.md R222. -/
theorem test_smexit : (act (.host 0x6000000000000000) inService).target = false := by decide
/-- 43_service_mode.md R227, the example. -/
theorem test_smexit_aborts : (act .psb (act (.host 0x6000000000000000) withSession)).evq = [0x3200000000001D00] := by decide
/-- 43_service_mode.md R223, the example. -/
theorem test_smwrite : (act (.host 0x7000000000001D06) inService).sm = withSession.sm := by decide
/-- 43_service_mode.md R224, the example. -/
theorem test_smread : (act (.host 0x8000000000001D00) inService).sm = ⟨.dcc, .selectop, .read, 29, 0, .write, 0, 0, 0, 0, 0⟩ := by
  decide
/-- 44_config_status.md R271. -/
theorem test_cfgwr :
    (act (.host 0x900000000000FF3F) State.reset).ctrl = 0xFF3F ∧ (act (.host 0x9000010000004E20) State.reset).s88Maxint = 20000 := by
  decide
/-- 44_config_status.md R275, R277. -/
theorem test_rdreg :
    (act (.host 0xA000020000000000) State.reset).evq = [0x6000020000000000] ∧
    (act (.host 0xA000020000000000) isHalted).evq = [0x6000020000000002] := by decide

/-- 95_test_vectors.md section 2: select at 0, complete at 1500. -/
theorem test_select : (act .psb oneSlot).infl = some (.cmd keyDcc3 true 5000 0 0) := by decide
theorem test_complete :
    ((act (.driver (okDraw false)) { act .psb oneSlot with now := 1500 }).slot keyDcc3).eligibleAt = 6500 := by decide
/-- 20_memory.md R86, 95_test_vectors.md section 4: slot address 5 with the correction is sent as wire address 1. -/
theorem test_mm_wire : wireAddr vectorConfig true ⟨.mm, .gl, 5⟩ = 1 ∧ wireAddr vectorConfig true ⟨.mm, .ga, 4⟩ = 0 := by decide
/-- 45_s88_mfx.md R294, the example. -/
theorem test_s88_done :
    (s88Done vectorConfig 0x20 .ok { State.reset with s88Cur := 1 }).evq = [0x4000000000000000, 0x4000000000050001] := by decide +kernel
/-- 60_exceptions.md R321, the example. -/
theorem test_fault :
    (act (.driver ⟨.fault, false, 0⟩) (act .psb oneSlot)).evq = [0x5000000000000000] := by decide

/-! ### Witnesses: states and operands that meet the hypotheses of the statements -/

/-- A step is one of the offered kind. -/
def offered (a : AgentStep) : State := State.reset.offering a

theorem witness_EncodeAfterDecode :
    (∃ i, decode 0xA000050000000000 = .ok i) ∧ (0xA000050000000000 : Word).toNat / 2 ^ 60 ≤ 10 ∧
    11 ≤ (0xB000000000000000 : Word).toNat / 2 ^ 60 := ⟨⟨.rdreg 0 5 0 0, by decide⟩, by decide, by decide⟩

theorem witness_ZeroFieldsAreTheMaskedBits :
    (∃ i, decode 0x0000000000000001 = .ok i ∧ i.zeroFieldsZero = false) ∧
    ∃ i, decode 0x1000380800000000 = .ok i ∧ i.zeroFieldsZero = true :=
  ⟨⟨.nop 1, by decide, by decide⟩, ⟨.setgl (some .dcc) 3 128 1 0 0, by decide, by decide⟩⟩

theorem witness_StepRunsDecodedCommand :
    (nextOffer (offered (.host 0)) = .host 0 ∧ decode 0 = .ok (.nop 0)) ∧
    (nextOffer (offered (.host 0xB000000000000000)) = .host 0xB000000000000000 ∧
      ∀ i, decode 0xB000000000000000 ≠ .ok i) ∧
    (offered .psb).agenda = .psb :: [] ∧ State.reset.agenda = [] := by
  refine ⟨⟨rfl, by decide⟩, ⟨rfl, fun i h => ?_⟩, rfl, rfl⟩
  rw [test_decode_illegal] at h
  cases h

theorem witness_CanonicalArenasReadingAlikeAreEqual :
    oneSlot.arena.wf = true ∧ oneSlot.arena ≠ [] ∧ ∀ k, oneSlot.arena.read k = oneSlot.arena.read k :=
  ⟨by decide, by decide, fun _ => rfl⟩

theorem witness_NopDoesNothing : (1 : BitVec 60) ≠ 0 := by decide

/-- Both ends of the ranges of 20_memory.md R83 that the spec fixes, the lower end of the others, and both clauses. -/
theorem witness_SetCommandsWriteOneSlot :
    (State.reset.mode ≠ .halted ∧ inRange params .dcc .gl (16383 : BitVec 14).toNat ∧
      (128 : BitVec 8).toNat ≤ params.speedMax .dcc ∧ (0 : BitVec 32).toNat >>> (params.funcMax .dcc + 1) = 0 ∧
      (State.reset.slot ⟨.dcc, .gl, 16383⟩).valid = false) ∧
    (inRange params .mm .gl (1 : BitVec 14).toNat ∧ inRange params .mm .gl (255 : BitVec 14).toNat) ∧
    (oneSlot.mode ≠ .halted ∧ inRange params .dcc .gl (3 : BitVec 14).toNat ∧ (oneSlot.slot keyDcc3).valid = true) ∧
    (inRange params .mm .ga (324 : BitVec 14).toNat ∧ (State.reset.slot ⟨.mm, .ga, 324⟩).valid = false) ∧
    (inRange params .dcc .ga (1 : BitVec 14).toNat ∧
      ((State.reset.writeSlot ⟨.dcc, .ga, 1⟩ ⟨true, true, 0, .ga 0 0⟩).slot ⟨.dcc, .ga, 1⟩).valid = true) :=
  ⟨⟨by decide, ⟨by decide, by decide⟩, params_inRange.speedMaxDcc, by simp, by decide⟩,
    ⟨⟨by decide, by decide⟩, by decide, by decide⟩, ⟨by decide, ⟨by decide, by decide⟩, by decide⟩,
    ⟨⟨by decide, by decide⟩, by decide⟩, ⟨⟨by decide, params_inRange.gaMaxDcc.1⟩, by decide⟩⟩

theorem witness_TermCommandsRemoveOneSlot :
    (oneSlot.mode ≠ .halted ∧ inRange params .dcc .gl (3 : BitVec 14).toNat ∧ (oneSlot.slot keyDcc3).valid = true) ∧
    ((State.reset.writeSlot ⟨.mm, .ga, 324⟩ ⟨true, false, 7, .ga 1 1⟩).mode ≠ .halted ∧
      inRange params .mm .ga (324 : BitVec 14).toNat ∧
      ((State.reset.writeSlot ⟨.mm, .ga, 324⟩ ⟨true, false, 7, .ga 1 1⟩).slot ⟨.mm, .ga, 324⟩).valid = true) ∧
    (State.reset.mode ≠ .halted ∧ (State.reset.slot keyDcc3).valid = false ∧
      (State.reset.slot ⟨.mm, .ga, 324⟩).valid = false) :=
  ⟨⟨by decide, ⟨by decide, by decide⟩, by decide⟩, ⟨by decide, ⟨by decide, by decide⟩, by decide⟩,
    by decide, by decide, by decide⟩

theorem witness_SmenterRecordsTheRequest :
    (State.reset.mode ≠ .halted ∧ State.reset.target = false ∧ vectorConfig.smSupport .dcc = true) ∧
    inService.mode ≠ .halted ∧ inService.target = true := by decide

theorem witness_SmexitWithdrawsTheRequest :
    (inService.mode ≠ .halted ∧ inService.target = true) ∧ State.reset.mode ≠ .halted ∧ State.reset.target = false := by decide

/-- CV number 1 is in every range; 0 is in none. -/
theorem witness_SessionCommandsCreateTheSession :
    (inService.mode = .service ∧ inService.target = true ∧ inService.sm.op = .none ∧ 1 ≤ (1 : BitVec 16).toNat ∧
      (1 : BitVec 16).toNat ≤ params.cvMax inService.sm.proto) ∧
    (State.reset.mode ≠ .halted ∧ State.reset.mode = .normal) ∧
    (withSession.mode = .service ∧ withSession.target = true ∧ withSession.sm.op ≠ .none) ∧ (0 : BitVec 16).toNat = 0 :=
  ⟨⟨rfl, rfl, rfl, by decide, (params_inRange.cvMax _).1⟩, by decide, by decide, rfl⟩

theorem witness_CfgwrWritesTheRegister :
    State.reset.mode ≠ .halted ∧ (0x0000FF3F : BitVec 32) &&& 0xFFFF00C0 = 0 ∧ (0x40 : BitVec 32) &&& 0xFFFF00C0 ≠ 0 ∧
    2 ≤ (2 : BitVec 4).toNat ∧ 2 ≤ (15 : BitVec 4).toNat ∧ (1 : BitVec 16) ≠ 0 ∧ isHalted.mode = .halted := by decide

theorem witness_RdregReportsTheRegister :
    (5 : BitVec 4).toNat ≤ 5 ∧ 6 ≤ (6 : BitVec 4).toNat ∧ 6 ≤ (15 : BitVec 4).toNat := by decide

theorem witness_RejectionIsTheFirstFailingCheck :
    firstFailing (wordChecks params 0xF000000000000000 State.reset) = some .badOpcode ∧
    firstFailing (wordChecks params 0x0000000000000000 State.reset) = none :=
  ⟨rfl, rfl⟩

theorem witness_RejectionOnlyReports :
    (∀ d, vectorConfig.evqDepth = some d → State.reset.evq.length < d) ∧
    vectorConfig.evqDepth = some 16 ∧ 16 ≤ ({ State.reset with evq := List.replicate 16 0 } : State).evq.length :=
  ⟨fun d h => by cases h; decide, rfl, by decide⟩

theorem witness_CommandsLeaveTheTransmissionAlone :
    (opcodeOf (.termga (some .dcc) 1 0)).toNat ≤ 4 ∧ 5 ≤ (opcodeOf (.smenter (some .dcc) 0)).toNat := by decide

theorem witness_EventQueueIsFirstInFirstOut :
    ({ State.reset with evq := [0x6000020000000000] } : State).evq = 0x6000020000000000 :: [] ∧ State.reset.evq = [] :=
  ⟨rfl, rfl⟩

/-- A DCC packet in flight since 0, and the answer to it due. -/
def packetInFlight : State :=
  { oneSlot.writeSlot keyDcc3 ⟨true, false, 0, .gl 128 1 0⟩ with
    infl := some (.cmd keyDcc3 true 5000 0 0), driver := some (.tx [true] ⟨.dcc, .gl, 0⟩) }

/-- A service-mode packet in flight since 0. -/
def serviceInFlight (ph : SmPhase) (rep : BitVec 8) : State :=
  { inService with
    sm := ⟨.dcc, .transmit, .write, 29, 6, ph, rep, 0, 0, 0, 0⟩, infl := some (.smpkt 0)
    driver := some (.tx [true] ⟨.dcc, .sm, 0⟩) }

/-- An acknowledgement sample in flight since 0, its window over. -/
def sampleInFlight (ph : SmPhase) (bit : BitVec 3) : State :=
  { inService with
    now := params.smAckWindowUs .dcc
    sm := ⟨.dcc, .sample, .read, 29, 0, ph, 0, bit, 0, 0, 0⟩, infl := some (.ack 0)
    driver := some (.ack (params.smAckWindowUs .dcc)) }

/-- An S88 poll in flight since 0. -/
def pollInFlight : State := { State.reset with infl := some (.s88 0), driver := some .s88 }

theorem witness_FaultHalts :
    (packetInFlight.infl = some (.cmd keyDcc3 true 5000 0 0) ∧ dueTime packetInFlight (.cmd keyDcc3 true 5000 0 0) ≤ 0) ∧
    ((sampleInFlight .verify 0).infl = some (.ack 0) ∧
      dueTime (sampleInFlight .verify 0) (.ack 0) ≤ (sampleInFlight .verify 0).now) ∧
    ((serviceInFlight .write 0).infl = some (.smpkt 0) ∧
      dueTime (serviceInFlight .write 0) (.smpkt 0) ≤ (serviceInFlight .write 0).now) ∧
    (pollInFlight.infl = some (.s88 0) ∧ dueTime pollInFlight (.s88 0) ≤ pollInFlight.now) ∧
    (⟨.fault, false, 0⟩ : Draw).status = .fault :=
  ⟨⟨rfl, Nat.le_refl 0⟩, ⟨rfl, Nat.le_of_eq (Nat.zero_add _)⟩, ⟨rfl, Nat.zero_le _⟩, ⟨rfl, Nat.zero_le _⟩, rfl⟩

theorem witness_HaltedAcceptsOnlyNopAndRdreg :
    isHalted.mode = .halted ∧ isHalted.infl = none ∧ (0 : Nat) < 1 ∧ (opcodeOf (.cfgwr 0 0 0 0)).toNat ≠ 0 ∧
    (opcodeOf (.cfgwr 0 0 0 0)).toNat ≠ 10 := by decide

theorem witness_OnlyResetLeavesHalted :
    (isHalted.offering (.clock 1)).mode = .halted ∧ (isHalted.offering (.clock 1)).infl = none ∧
    nextOffer (isHalted.offering (.clock 1)) ≠ .reset ∧ ∃ t, step (isHalted.offering (.clock 1)) = .next t :=
  ⟨rfl, rfl, by simp [nextOffer, State.offering], ⟨_, rfl⟩⟩

theorem witness_ModeChangesOnlyBySwitchHaltOrReset :
    ∃ t, step (({ State.reset with target := true } : State).offering .psb) = .next t ∧
      t.mode ≠ (({ State.reset with target := true } : State).offering .psb).mode := ⟨_, rfl, by decide⟩

theorem witness_PsbTakesTheFirstEnabledStep :
    packetInFlight.infl ≠ none ∧ isHalted.mode = .halted ∧
    (({ State.reset with target := true } : State).infl = none ∧ ({ State.reset with target := true } : State).mode = .normal ∧
      ({ State.reset with target := true } : State).target = true) ∧
    (({ inService with target := false } : State).infl = none ∧ ({ inService with target := false } : State).mode = .service) ∧
    (oneSlot.infl = none ∧ oneSlot.mode = .normal ∧ oneSlot.target = false ∧ s88Due params oneSlot 0 = false) ∧
    withSession.infl = none ∧ withSession.mode = .service ∧ withSession.target = true ∧ s88Due params withSession 0 = false :=
  ⟨by decide, rfl, ⟨rfl, rfl, rfl⟩, ⟨rfl, rfl⟩, ⟨rfl, rfl, rfl, rfl⟩, rfl, rfl, rfl, rfl⟩

/-- A poll due by the time trigger, whatever the packet-count parameter is. -/
def pollDue : State := { oneSlot with ctrl := 2, s88Maxint := 1, now := 1 }

theorem pollDue_due : s88Due params pollDue pollDue.now = true := by
  have h : s88TimeTrigger pollDue pollDue.now = true := by decide
  have h2 : pollDue.s88En = true := by decide
  simp [s88Due, h, h2]

theorem witness_S88StartIsGrantedFirst :
    pollDue.infl = none ∧ pollDue.mode ≠ .halted ∧ ¬switchPending pollDue ∧ pollDue.sm.state ≠ .sample ∧
    s88Due params pollDue pollDue.now = true := by
  refine ⟨rfl, by decide, ?_, by decide, pollDue_due⟩
  rintro (⟨_, h⟩ | ⟨h, _⟩) <;> cases h

theorem oneSlot_only (j : SlotKey) (t : Nat) (h : EligibleAt oneSlot t j) : j = keyDcc3 := by
  by_contra hne
  have hv := h.1
  rw [oneSlot, State.slot_writeSlot, if_neg hne] at hv
  cases hv

theorem witness_SchedSelectStartsTheBestPacket :
    oneSlot.mode = .normal ∧ oneSlot.target = false ∧ oneSlot.infl = none ∧ s88Due params oneSlot oneSlot.now = false ∧
    EligibleAt oneSlot oneSlot.now keyDcc3 ∧
    ∀ j, EligibleAt oneSlot oneSlot.now j → j ≠ keyDcc3 → Precedes oneSlot keyDcc3 j :=
  ⟨rfl, rfl, rfl, rfl, ⟨by decide, by decide, by decide⟩, fun j hj hne => absurd (oneSlot_only j _ hj) hne⟩

theorem witness_PacketsStartOnlyWhenEligibleAndFirst : StartsPacket keyDcc3 (oneSlot.offering .psb) :=
  ⟨rfl, true, 5000, params.pauseUs .dcc .gl (.gl 128 1 0), 0, rfl⟩

/-- For the statements on a completion the status is free: here one of each. -/
theorem witness_SchedDoneSetsTheTimers :
    packetInFlight.infl = some (.cmd keyDcc3 true 5000 0 0) ∧ 0 ≤ packetInFlight.now ∧ (okDraw false).status = .ok ∧
    (⟨.timingMiss, false, 0⟩ : Draw).status = .timingMiss ∧ (packetInFlight.slot keyDcc3).valid = true := by
  refine ⟨rfl, Nat.zero_le _, rfl, rfl, by decide⟩

theorem witness_WakeTimeIsTheLeastEnabledTime :
    State.reset.infl = none ∧ psbRule params State.reset = none ∧ State.reset.now ≤ 5 := ⟨rfl, rfl, by decide⟩

theorem witness_TimePassesOnlyWhileNothingIsEnabled :
    ((0 : Nat) < 1 ∧ packetInFlight.infl ≠ none) ∧ State.reset.infl = none ∧
    ∃ t, step (State.reset.offering (.clock 1)) = .next t ∧ t.now ≠ (State.reset.offering (.clock 1)).now ∧
      nextOffer (State.reset.offering (.clock 1)) ≠ .reset :=
  ⟨by decide, rfl, ⟨_, rfl, by decide, by simp [nextOffer, State.offering]⟩⟩

/-- The MM encoder of TVCFG writes the wire address plus 3 in 15 binary digits. -/
theorem witness_MmCorrectionDoesNotAlias : vectorConfig.mmShift = 4 ∧ vectorConfig.MmInjective := by
  refine ⟨rfl, fun k x y pl h1 h2 h3 h4 h => ?_⟩
  have hb : ∀ i < 15, (x + 3).toNat.testBit i = (y + 3).toNat.testBit i := by
    simpa [vectorConfig, List.map_inj_left, List.mem_range] using h
  have hn : (x + 3).toNat = (y + 3).toNat := by
    refine Nat.eq_of_testBit_eq fun i => ?_
    by_cases hi : i < 15
    · exact hb i hi
    · have hp : 2 ^ 15 ≤ 2 ^ i := Nat.pow_le_pow_right (by decide) (Nat.le_of_not_lt hi)
      rw [Nat.testBit_eq_false_of_lt (by omega), Nat.testBit_eq_false_of_lt (by omega)]
  omega

/-- Boundary addresses of the clauses: 1 and 4 beside 321 and 324, 5 beside 1. -/
theorem witness_MmCorrectionDoesNotAlias_addresses :
    1 ≤ (4 : BitVec 14).toNat ∧ (4 : BitVec 14).toNat ≤ 4 ∧ 321 ≤ (324 : BitVec 14).toNat ∧ (324 : BitVec 14).toNat ≤ 324 ∧
    5 ≤ (5 : BitVec 14).toNat ∧ (1 : BitVec 14).toNat + 4 = (5 : BitVec 14).toNat := by decide

/-- A record whose encoders round-trip, and legal input for each clause: MM address 5 with the correction has the packet of
address 1 without; a CV packet has its own; and MM GA address 324, the end of its range, has a packet beside a CV packet. -/
theorem witness_DifferentCommandsNeverShareAPacket :
    ∃ P : Params, P.mmShift = 4 ∧ RoundTrip P ∧
      (inRange P .mm .gl (5 : BitVec 14).toNat ∧ inRange P .mm .gl (1 : BitVec 14).toNat ∧
        payloadLegal P ⟨.mm, .gl, 5⟩ (.gl 0 0 0) ∧ payloadLegal P ⟨.mm, .gl, 1⟩ (.gl 0 0 0) ∧
        (mux P true ⟨.mm, .gl, 5⟩ (.gl 0 0 0)).bits = (mux P false ⟨.mm, .gl, 1⟩ (.gl 0 0 0)).bits) ∧
      (encSmInput P .mm .write 1 (.byte 255) ∧
        (muxSm P .mm .write 1 (.byte 255)).bits = (muxSm P .mm .write 1 (.byte 255)).bits) ∧
      inRange P .mm .ga (324 : BitVec 14).toNat ∧ payloadLegal P ⟨.mm, .ga, 324⟩ (.ga 1 1) :=
  ⟨UnaryEncoder.record, rfl, UnaryEncoder.record_contract.roundTrip,
    ⟨⟨by decide, by decide⟩, ⟨by decide, by decide⟩, ⟨rfl, by decide, by decide⟩, ⟨rfl, by decide, by decide⟩, rfl⟩,
    ⟨⟨rfl, by decide, by decide, trivial⟩, rfl⟩, ⟨by decide, by decide⟩, rfl⟩

theorem witness_SwitchIntoService :
    ({ State.reset with target := true } : State).infl = none ∧ ({ State.reset with target := true } : State).mode = .normal ∧
    ({ State.reset with target := true } : State).target = true := ⟨rfl, rfl, rfl⟩

theorem witness_SwitchOutOfServiceAborts :
    (({ withSession with target := false } : State).infl = none ∧ ({ withSession with target := false } : State).mode = .service ∧
      ({ withSession with target := false } : State).target = false ∧
      ({ withSession with target := false } : State).sm.op ≠ .none) ∧
    ({ inService with target := false } : State).sm.op = .none := ⟨⟨rfl, rfl, rfl, by decide⟩, rfl⟩

/-- A session in a given state, at an output opportunity. -/
def sessionIn (st : SmState) : State := { withSession with sm := { withSession.sm with state := st } }

theorem sessionIn_turn (st : SmState) : ServiceTurn (sessionIn st) :=
  ⟨rfl, rfl, rfl, by simp [s88Due, State.s88En, sessionIn, withSession, inService, State.reset]⟩

theorem witness_SelectOpStartsAnAttempt : ServiceTurn withSession ∧ withSession.sm.state = .selectop := ⟨⟨rfl, rfl, rfl, rfl⟩, rfl⟩
theorem witness_TransmitStartsThePacketOfThePhase :
    ServiceTurn (sessionIn .transmit) ∧ (sessionIn .transmit).sm.state = .transmit := ⟨sessionIn_turn _, rfl⟩
theorem witness_DoneAndFailedReportTheOperation :
    (ServiceTurn (sessionIn .done) ∧ (sessionIn .done).sm.state = .done) ∧
    ServiceTurn (sessionIn .failed) ∧ (sessionIn .failed).sm.state = .failed :=
  ⟨⟨sessionIn_turn _, rfl⟩, sessionIn_turn _, rfl⟩

/-- Retries used up: as many as the parameter allows; and one below it, where it is not 0. -/
theorem witness_RetryRepeatsOrFails :
    (ServiceTurn ({ sessionIn .retry with sm := { (sessionIn .retry).sm with
        retry := BitVec.ofNat 8 (params.smRetryMax .dcc) } }) ∧
      params.smRetryMax .dcc ≤ (BitVec.ofNat 8 (params.smRetryMax .dcc)).toNat) ∧
    (0 < params.smRetryMax .dcc → (sessionIn .retry).sm.retry.toNat < params.smRetryMax (sessionIn .retry).sm.proto) := by
  have h := params_inRange.smRetryMax .dcc
  refine ⟨⟨⟨rfl, rfl, rfl, rfl⟩, ?_⟩, fun h => h⟩
  rw [BitVec.toNat_ofNat, Nat.mod_eq_of_lt (by omega)]

/-- The last write packet of an attempt, one before it, and a verify packet. -/
theorem witness_SmPacketDone :
    ((serviceInFlight .write (BitVec.ofNat 8 (params.smWriteRepeat .dcc - 1))).infl = some (.smpkt 0) ∧
      (BitVec.ofNat 8 (params.smWriteRepeat .dcc - 1) + 1).toNat = params.smWriteRepeat .dcc) ∧
    ((serviceInFlight .write 255).infl = some (.smpkt 0) ∧ ((255 : BitVec 8) + 1).toNat ≠ params.smWriteRepeat .dcc) ∧
    (serviceInFlight .verify 0).sm.phase ≠ .write ∧ (okDraw false).status ≠ .fault ∧
    (⟨.fault, false, 0⟩ : Draw).status = .fault := by
  have h := params_inRange.smWriteRepeat .dcc
  refine ⟨⟨rfl, ?_⟩, ⟨rfl, ?_⟩, ?_, ?_, rfl⟩
  · have h1 : (1 : BitVec 8).toNat = 1 := by decide
    rw [BitVec.toNat_add, BitVec.toNat_ofNat, h1]
    omega
  · have h255 : ((255 : BitVec 8) + 1).toNat = 0 := by decide
    rw [h255]
    omega
  · simp [serviceInFlight]
  · simp [okDraw]

theorem witness_SampleOpensTheWindowAtTheDeadline :
    ((sessionIn .sample).mode = .service ∧ (sessionIn .sample).target = true ∧ (sessionIn .sample).infl = none ∧
      (sessionIn .sample).sm.state = .sample ∧ (sessionIn .sample).sm.deadline ≤ (sessionIn .sample).now) ∧
    (sessionIn .sample).now < ({ (sessionIn .sample).sm with deadline := 1 } : SmRegs).deadline := by
  refine ⟨⟨rfl, rfl, rfl, rfl, Nat.le_refl 0⟩, Nat.zero_lt_one⟩

/-- Each phase at bits 0 and 7 with the window over; and a window that has not begun to pass. -/
theorem witness_SmAckDone :
    ((sampleInFlight .bitv 7).infl = some (.ack 0) ∧
      0 + params.smAckWindowUs (sampleInFlight .bitv 7).sm.proto ≤ (sampleInFlight .bitv 7).now ∧
      (sampleInFlight .bitv 7).sm.phase = .bitv ∧ (sampleInFlight .bitv 7).sm.bit.toNat = 7) ∧
    (sampleInFlight .bitv 0).sm.bit.toNat < 7 ∧ (sampleInFlight .verify 0).sm.phase = .verify ∧ (okDraw true).status = .ok ∧
    ({ sampleInFlight .verify 0 with infl := some (.ack 1) } : State).now <
      1 + params.smAckWindowUs (sampleInFlight .verify 0).sm.proto :=
  ⟨⟨rfl, Nat.le_of_eq (Nat.zero_add _), rfl, rfl⟩, by decide, rfl, rfl, by
    show params.smAckWindowUs .dcc < 1 + params.smAckWindowUs .dcc
    omega⟩

theorem witness_SequencerLeavesTheSchedulerAlone :
    ((withSession.offering .psb).mode = .service ∧ (∃ t, step (withSession.offering .psb) = .next t) ∧
      nextOffer (withSession.offering .psb) = .psb) ∧
    nextOffer ((serviceInFlight .verify 0).offering (.driver (okDraw false))) = .driver (okDraw false) ∧
      ((serviceInFlight .verify 0).offering (.driver (okDraw false))).infl = some (.smpkt 0) :=
  ⟨⟨rfl, ⟨_, rfl⟩, rfl⟩, rfl, rfl⟩

theorem witness_AcknowledgedWriteEndsOk :
    ∃ s : State, s.mode = .service ∧ s.target = true ∧ s.infl = none ∧ s.s88En = false ∧ s.sm.op = .write ∧
      s.sm.state = .selectop ∧
      s.agenda = writeAttempt (params.smWriteRepeat s.sm.proto) (params.smAckDelayUs s.sm.proto)
        (params.smAckWindowUs s.sm.proto) ++ [] :=
  let steps := writeAttempt (params.smWriteRepeat .dcc) (params.smAckDelayUs .dcc) (params.smAckWindowUs .dcc) ++ []
  ⟨{ withSession with agenda := steps }, rfl, rfl, rfl, by simp [State.s88En, withSession, inService, State.reset], rfl, rfl, rfl⟩

theorem witness_S88DoneReportsEachFlippedBit :
    pollInFlight.infl = some (.s88 0) ∧ 0 ≤ pollInFlight.now ∧ (⟨.ok, false, 0⟩ : Draw).status = .ok ∧
    (⟨.ok, false, 0⟩ : Draw).vector.toNat < 2 ^ params.s88Bits ∧
    pollInFlight.s88Cur.toNat < 2 ^ params.s88Bits := by
  exact ⟨rfl, Nat.zero_le _, rfl, by simp, by simp [pollInFlight, State.reset]⟩

theorem witness_S88MissDiscardsTheFrame :
    pollInFlight.infl = some (.s88 0) ∧ 0 ≤ pollInFlight.now ∧ (⟨.timingMiss, false, 0⟩ : Draw).status = .timingMiss :=
  ⟨rfl, Nat.zero_le _, rfl⟩

theorem witness_PacketInFlightIsNeverAltered :
    (packetInFlight.offering (.host 0x1000380800000000)).infl = some (.cmd keyDcc3 true 5000 0 0) ∧
    (∃ t, step (packetInFlight.offering (.host 0x1000380800000000)) = .next t) ∧
    (∀ d, nextOffer (packetInFlight.offering (.host 0x1000380800000000)) ≠ .driver d) ∧
    nextOffer (packetInFlight.offering (.host 0x1000380800000000)) ≠ .reset := by
  refine ⟨rfl, ⟨_, step_eq _⟩, ?_, ?_⟩ <;> simp [nextOffer, State.offering]

/-- A sound state with a valid slot whose packet is in flight, and the steps to the next packet of the slot. -/
def betweenPackets : State :=
  { packetInFlight with agenda := [.driver (okDraw false), .clock 5000, .psb] }

theorem inv_betweenPackets : Inv params betweenPackets where
  arena := by decide
  slots := by
    intro key
    have hs : betweenPackets.slot key = if key = keyDcc3 then ⟨true, false, 0, .gl 128 1 0⟩ else Slot.reset key.kind := by
      show (packetInFlight.slot key) = _
      rw [show packetInFlight.slot key = (oneSlot.writeSlot keyDcc3 ⟨true, false, 0, .gl 128 1 0⟩).slot key from rfl,
        State.slot_writeSlot]
      split
      · rfl
      · rename_i h
        rw [oneSlot, State.slot_writeSlot, if_neg h]
        rfl
    rw [hs]
    split
    · rename_i h
      subst h
      exact ⟨fun h => (by cases h), fun _ => ⟨by decide, rfl, params_inRange.speedMaxDcc, by simp [funcsWithin]⟩, Nat.zero_le _⟩
    · exact ⟨fun _ => ⟨rfl, rfl⟩, fun h => (by cases h), Nat.zero_le _⟩
  session := by
    refine ⟨by decide, fun _ => rfl, fun _ => rfl, fun h => absurd rfl h, Nat.zero_le _, fun h => ?_, Nat.zero_le _, fun h => ?_⟩
    · cases h
    · cases h
  flight := ⟨rfl, rfl, by decide, Nat.zero_le _, [true], _, rfl, ⟨Nat.le_refl 1, params_inRange.pktMaxBits⟩, rfl, rfl⟩
  queue := fun _ _ => Nat.zero_le _
  ctrl := by decide
  frameCur := by simp [betweenPackets, packetInFlight, oneSlot, State.writeSlot, State.reset]
  framePrev := by simp [betweenPackets, packetInFlight, oneSlot, State.writeSlot, State.reset]
  lastPast := Nat.zero_le _

theorem witness_TimersNeverDecrease :
    Inv params betweenPackets ∧ (∃ t, step betweenPackets = .next t) ∧ nextOffer betweenPackets ≠ .reset :=
  ⟨inv_betweenPackets, ⟨_, step_eq _⟩, by simp [nextOffer, betweenPackets]⟩

theorem witness_EveryStepKeepsTheInvariant : Inv params betweenPackets ∧ ∃ t, step betweenPackets = .next t :=
  ⟨inv_betweenPackets, ⟨_, step_eq _⟩⟩

/-- The earliest start the gap allows: the packet completes at 0 and the next one starts at 5000. -/
theorem witness_GapIsKept :
    Inv params betweenPackets ∧ ResetFree 2 betweenPackets ∧ CompletesPacket keyDcc3 betweenPackets ∧
    StartsPacket keyDcc3 (after 2 betweenPackets) := by
  refine ⟨inv_betweenPackets, fun m hm => ?_, ⟨okDraw false, true, 5000, 0, 0, rfl, rfl, Nat.le_refl 0⟩,
    ⟨rfl, false, 5000, params.pauseUs .dcc .gl (.gl 128 1 0), 5000, rfl⟩⟩
  match m, hm with
  | 0, _ => simp [after, nextOffer, betweenPackets]
  | 1, _ =>
    have h : nextOffer (after 1 betweenPackets) = .clock 5000 := rfl
    rw [h]
    simp

/-- A reached state with a valid slot, and one with a packet in flight: `SETGA MM 324 0 1`, then the PSB's step. -/
theorem witness_ReachableStatesAreLegal :
    ((after 1 { State.reset with agenda := [.host 0x2414400000000001, .psb] }).slot ⟨.mm, .ga, 324⟩).valid = true ∧
    (after 2 { State.reset with agenda := [.host 0x2414400000000001, .psb] }).infl =
      some (.cmd ⟨.mm, .ga, 324⟩ true 50000 (params.pauseUs .mm .ga (.ga 0 1)) 0) := ⟨rfl, rfl⟩

/-- A completion at step 2 of a run, and a creation at step 1 of another, after the CLOCK has moved. -/
theorem witness_EligibleTimesAreAccountedFor :
    (CompletesPacket ⟨.mm, .ga, 324⟩ (after 2 { State.reset with
        agenda := [.host 0x2414400000000001, .psb, .driver (okDraw false)] }) ∧
      ((after 3 { State.reset with
        agenda := [.host 0x2414400000000001, .psb, .driver (okDraw false)] }).slot ⟨.mm, .ga, 324⟩).eligibleAt =
          0 + gapOf .mm) ∧
    ((after 1 { State.reset with agenda := [.clock 7, .host 0x2414400000000001] }).slot ⟨.mm, .ga, 324⟩).valid = false ∧
    ((after 2 { State.reset with agenda := [.clock 7, .host 0x2414400000000001] }).slot ⟨.mm, .ga, 324⟩).valid = true ∧
    ((after 2 { State.reset with agenda := [.clock 7, .host 0x2414400000000001] }).slot ⟨.mm, .ga, 324⟩).eligibleAt = 7 :=
  ⟨⟨⟨okDraw false, true, 50000, params.pauseUs .mm .ga (.ga 0 1), 0, rfl, rfl, Nat.le_refl 0⟩, rfl⟩, rfl, rfl, rfl⟩

theorem witness_BestHasTheLeastSortKey : [keyDcc3] ≠ [] ∧ best oneSlot [keyDcc3] = some keyDcc3 := ⟨by decide, rfl⟩

end Sys2Proof.Tests
end

/-! ## Reset and the STATUS view (10_state.md R35, R47) -/

namespace Sys2Proof.Machine

/-- Two fields side by side: the upper one counts in units of the lower one's range. -/
theorem toNat_append_eq_add {m n : Nat} (x : BitVec m) (y : BitVec n) :
    (x ++ y).toNat = x.toNat * 2 ^ n + y.toNat := by
  rw [BitVec.toNat_append, ← Nat.shiftLeft_add_eq_or_of_lt y.isLt, Nat.shiftLeft_eq]

/-- STATUS as the sum of its fields, each at its place in Table R35. -/
theorem statusWord_toNat (s : State) :
    s.statusWord.toNat =
      s.mode.code.toNat + s.busy.toNat * 2 ^ 2 + s.target.toNat * 2 ^ 3 + (if s.sm.op = .none then 0 else 1) * 2 ^ 4
        + s.sm.state.code.toNat * 2 ^ 5 + s.evovf.toNat * 2 ^ 8 + (protoCode s.sm.proto).toNat * 2 ^ 9 := by
  have hsession : (decide (s.sm.op ≠ .none)).toNat = if s.sm.op = .none then 0 else 1 := by
    by_cases h : s.sm.op = .none <;> simp [h]
  simp only [State.statusWord, toNat_append_eq_add, BitVec.toNat_ofBool, hsession, BitVec.toNat_ofNat]
  omega

/-- BUSY is the presence of a transaction in flight (10_state.md R29). -/
theorem busy_iff (s : State) : s.busy = true ↔ s.infl ≠ none := by
  rw [State.busy, Option.isSome_iff_ne_none]

/-- STATUS is no register that CFGWR may write (10_state.md R39, 44_config_status.md R271). -/
theorem exec_cfgwr_status {s : State} (v : BitVec 32) (hm : s.mode ≠ .halted) :
    exec (.cfgwr 0 2 0 v) s = .next (reject params .badReg (encode (.cfgwr 0 2 0 v)) s) := by
  have hpre : preCheck (.cfgwr 0 2 0 v) s = .ok () := preCheck_eq_ok.2 ⟨.inl hm, rfl⟩
  have hrule : cfgwrRule params 0 2 0 v s = .error .badReg := by
    unfold cfgwrRule
    rw [hpre]
    rfl
  rw [exec_eq, execWith, commandRule, hrule, settle_error]

/-- Settles O16: the sum is read off the word's layout, the codes and the reset value by evaluation. -/
theorem statusWordIsTheView : Obligations.StatusWordIsTheView :=
  ⟨statusWord_toNat, busy_iff, rfl, rfl, rfl, fun _ v hm => exec_cfgwr_status v hm⟩

/-- After reset every slot is blank. -/
@[simp] theorem reset_slot (k : SlotKey) : State.reset.slot k = Slot.reset k.kind := rfl

/-- The reset input, from any state (70_reset_and_hazards.md R350). -/
theorem step_offering_reset (s : State) :
    step (s.offering .reset) = .next { State.reset with agenda := s.agenda, drawn := s.drawn } := rfl

/-- After reset no poll is ever due: `CTRL.S88_EN` is 0. -/
theorem s88Due_reset (P : Params) (t : Nat) : s88Due P State.reset t = false := rfl

/-- After reset the scheduler is silent at every time (70_reset_and_hazards.md R351). -/
theorem psbRuleAt_reset (P : Params) (t : Nat) : psbRuleAt P State.reset t = none := by
  cases h : psbRuleAt P State.reset t with
  | none => rfl
  | some r =>
    have hbest : best State.reset (cand State.reset t) = none := rfl
    obtain ⟨_, ⟨_, ht, _⟩ | ⟨hm, _⟩ | ⟨hd, _⟩ | ⟨_, _, _, k, hk, _⟩ | ⟨hm, _⟩⟩ := psbRuleAt_cases h
    · cases ht
    · cases hm
    · rw [s88Due_reset] at hd; cases hd
    · rw [hbest] at hk; cases hk
    · cases hm

/-- After reset nothing will wake the PSB. -/
theorem wake_reset : wake State.reset = none := rfl

/-- Settles O25: the table's values by evaluation, the silence by the cases of the PSB's choice. -/
theorem resetLeavesTheTableValues : Obligations.ResetLeavesTheTableValues :=
  ⟨rfl, reset_slot, rfl, rfl, rfl, rfl, rfl, rfl, rfl, rfl, rfl, rfl, rfl, rfl, rfl, rfl, step_offering_reset,
    psbRuleAt_reset params, wake_reset⟩

end Sys2Proof.Machine

/-! ## The canonical form of the slot arena (10_state.md R21; notes/assumptions/10.md) -/

namespace Sys2Proof.Machine

/-- The canonical form of a non-empty arena. -/
theorem Arena.wf_cons {k : SlotKey} {sl : Slot} {rest : Arena} :
    Arena.wf ((k, sl) :: rest) = true ↔
      sl ≠ unlistedSlot k ∧ (∀ e ∈ rest, slotIndex k < slotIndex e.1) ∧ rest.wf = true := by
  simp [Arena.wf, and_assoc]

theorem Arena.read_cons_self (k : SlotKey) (sl : Slot) (rest : Arena) : Arena.read ((k, sl) :: rest) k = sl := by
  simp [Arena.read]

theorem Arena.read_cons_of_ne {k j : SlotKey} (sl : Slot) (rest : Arena) (h : k ≠ j) :
    Arena.read ((k, sl) :: rest) j = rest.read j := by
  simp [Arena.read, h]

/-- A key below every listed key is not listed. -/
theorem Arena.read_of_below {m : Arena} {k : SlotKey} (h : ∀ e ∈ m, slotIndex k < slotIndex e.1) :
    m.read k = unlistedSlot k := by
  induction m with
  | nil => rfl
  | cons e rest ih =>
    have hne : e.1 ≠ k := fun he => absurd (h e List.mem_cons_self) (by simp [he])
    rw [Arena.read_cons_of_ne _ _ hne]
    exact ih fun e he => h e (List.mem_cons_of_mem _ he)

/-- A listed key of a canonical arena is not below another canonical arena that reads alike. -/
theorem Arena.not_below_of_read_eq {k : SlotKey} {sl : Slot} {rest n : Arena}
    (hm : Arena.wf ((k, sl) :: rest) = true) (h : Arena.read ((k, sl) :: rest) k = n.read k) :
    ¬ ∀ e ∈ n, slotIndex k < slotIndex e.1 := by
  intro hlow
  rw [Arena.read_cons_self, Arena.read_of_below hlow] at h
  exact (Arena.wf_cons.1 hm).1 h

/-- The first key of a canonical arena is not above that of another that reads alike. -/
theorem Arena.head_le_of_read_eq {k j : SlotKey} {sl sj : Slot} {rest rest' : Arena}
    (hm : Arena.wf ((k, sl) :: rest) = true) (hn : Arena.wf ((j, sj) :: rest') = true)
    (h : Arena.read ((k, sl) :: rest) k = Arena.read ((j, sj) :: rest') k) : slotIndex j ≤ slotIndex k := by
  by_contra hlt
  have hlt : slotIndex k < slotIndex j := not_le.1 hlt
  refine Arena.not_below_of_read_eq hm h fun e he => ?_
  rcases List.mem_cons.1 he with rfl | he
  · exact hlt
  · exact hlt.trans ((Arena.wf_cons.1 hn).2.1 e he)

/-- Canonical arenas with the same first entry that read alike have tails that read alike. -/
theorem Arena.read_tail_eq {k : SlotKey} {sl : Slot} {m n : Arena}
    (hm : Arena.wf ((k, sl) :: m) = true) (hn : Arena.wf ((k, sl) :: n) = true)
    (h : ∀ j, Arena.read ((k, sl) :: m) j = Arena.read ((k, sl) :: n) j) (j : SlotKey) : m.read j = n.read j := by
  by_cases hj : k = j
  · subst hj
    rw [Arena.read_of_below (Arena.wf_cons.1 hm).2.1, Arena.read_of_below (Arena.wf_cons.1 hn).2.1]
  · have := h j
    rwa [Arena.read_cons_of_ne _ _ hj, Arena.read_cons_of_ne _ _ hj] at this

/-- Settles O7, by induction on the first arena: the first keys agree since neither can be below the other, the first
slots since they read alike, and the tails by induction. -/
theorem canonicalArenasReadingAlikeAreEqual : Obligations.CanonicalArenasReadingAlikeAreEqual := by
  intro m
  induction m with
  | nil =>
    intro n _ hn h
    cases n with
    | nil => rfl
    | cons e n => exact absurd (by simp) (Arena.not_below_of_read_eq hn (h e.1).symm)
  | cons e m ih =>
    obtain ⟨k, sl⟩ := e
    intro n hm hn h
    cases n with
    | nil => exact absurd (by simp) (Arena.not_below_of_read_eq hm (h k))
    | cons e' n =>
      obtain ⟨j, sj⟩ := e'
      have hkj : k = j := slotIndex_injective
        (le_antisymm (Arena.head_le_of_read_eq hn hm (h j).symm) (Arena.head_le_of_read_eq hm hn (h k)))
      subst hkj
      have hsl : sl = sj := by simpa only [Arena.read_cons_self] using h k
      subst hsl
      rw [ih n (Arena.wf_cons.1 hm).2.2 (Arena.wf_cons.1 hn).2.2 (Arena.read_tail_eq hm hn h)]

end Sys2Proof.Machine

/-! ## What each agent's step changes (00_scope.md R5, 60_exceptions.md Table R344)

For each step one frame lemma, in which the fields the step may write are free and all the others are the old state's, and the
lemmas on single fields that follow from it. -/

namespace Sys2Proof.Machine

/-! ### Taking an offer, showing a trigger -/

@[simp] theorem takeOffer_now (s : State) : (takeOffer s).now = s.now := by
  obtain ⟨_, _, h⟩ := takeOffer_eq s; rw [h]
@[simp] theorem takeOffer_pauseUntil (s : State) : (takeOffer s).pauseUntil = s.pauseUntil := by
  obtain ⟨_, _, h⟩ := takeOffer_eq s; rw [h]
@[simp] theorem takeOffer_mode (s : State) : (takeOffer s).mode = s.mode := by
  obtain ⟨_, _, h⟩ := takeOffer_eq s; rw [h]
@[simp] theorem takeOffer_target (s : State) : (takeOffer s).target = s.target := by
  obtain ⟨_, _, h⟩ := takeOffer_eq s; rw [h]
@[simp] theorem takeOffer_infl (s : State) : (takeOffer s).infl = s.infl := by
  obtain ⟨_, _, h⟩ := takeOffer_eq s; rw [h]
@[simp] theorem takeOffer_driver (s : State) : (takeOffer s).driver = s.driver := by
  obtain ⟨_, _, h⟩ := takeOffer_eq s; rw [h]
@[simp] theorem takeOffer_slot (s : State) (k : SlotKey) : (takeOffer s).slot k = s.slot k := by
  obtain ⟨_, _, h⟩ := takeOffer_eq s; rw [h]; rfl

@[simp] theorem trig_slot (c : TxClass) (s : State) (k : SlotKey) : (trig c s).slot k = s.slot k := by
  rw [trig_eq]; rfl

/-! ### The HOST's step -/

/-- The HOST's step is an emission (a rejection) or an accepted command's state. -/
theorem hostStep_cases (P : Params) (w : Word) (s : State) :
    (∃ e, hostStep P w s = emit P e s) ∨ ∃ i, commandRule P i s = .ok (hostStep P w s) := by
  unfold hostStep
  cases decode w with
  | error e => exact .inl ⟨_, rfl⟩
  | ok i =>
    simp only [execWith]
    cases h : commandRule P i s with
    | error r => exact .inl ⟨_, rfl⟩
    | ok t => exact .inr ⟨i, h⟩

/-- An accepted command writes slots, the target, the session, the two registers and the event queue only. -/
theorem commandRule_frame {P : Params} {i : Instr} {s t : State} (h : commandRule P i s = .ok t) :
    ∃ a tg tp r c x q o, t = { s with
      arena := a, target := tg, targetProto := tp, sm := r, ctrl := c, s88Maxint := x, evq := q, evovf := o } := by
  obtain rfl | ⟨r, v, _, rfl⟩ | ⟨_, ⟨key, pl, _, _, rfl⟩ | ⟨key, _, _, rfl⟩ | ⟨p, _, _, rfl⟩ | ⟨_, rfl⟩ |
    ⟨op, cv, v, _, _, _, _, _, _, rfl⟩ | ⟨v, _, rfl⟩ | ⟨v, rfl⟩⟩ := commandRule_cases h
  all_goals exact ⟨_, _, _, _, _, _, _, _, rfl⟩

/-- So does the HOST's step, whatever the word. -/
theorem hostStep_frame (P : Params) (w : Word) (s : State) :
    ∃ a tg tp r c x q o, hostStep P w s = { s with
      arena := a, target := tg, targetProto := tp, sm := r, ctrl := c, s88Maxint := x, evq := q, evovf := o } := by
  obtain ⟨e, h⟩ | ⟨i, h⟩ := hostStep_cases P w s
  · exact ⟨_, _, _, _, _, _, _, _, h⟩
  · exact commandRule_frame h

@[simp] theorem hostStep_now (P : Params) (w : Word) (s : State) : (hostStep P w s).now = s.now := by
  obtain ⟨_, _, _, _, _, _, _, _, h⟩ := hostStep_frame P w s; rw [h]
@[simp] theorem hostStep_pauseUntil (P : Params) (w : Word) (s : State) :
    (hostStep P w s).pauseUntil = s.pauseUntil := by
  obtain ⟨_, _, _, _, _, _, _, _, h⟩ := hostStep_frame P w s; rw [h]
@[simp] theorem hostStep_mode (P : Params) (w : Word) (s : State) : (hostStep P w s).mode = s.mode := by
  obtain ⟨_, _, _, _, _, _, _, _, h⟩ := hostStep_frame P w s; rw [h]
@[simp] theorem hostStep_infl (P : Params) (w : Word) (s : State) : (hostStep P w s).infl = s.infl := by
  obtain ⟨_, _, _, _, _, _, _, _, h⟩ := hostStep_frame P w s; rw [h]
@[simp] theorem hostStep_driver (P : Params) (w : Word) (s : State) : (hostStep P w s).driver = s.driver := by
  obtain ⟨_, _, _, _, _, _, _, _, h⟩ := hostStep_frame P w s; rw [h]

/-- The slots after SETGL or SETGA (40_registry_commands.md R133 to R136). -/
theorem setSlot_slot (key : SlotKey) (pl : Payload) (s : State) (k : SlotKey) :
    (setSlot key pl s).slot k = if k = key then
      ⟨true, true, if (s.slot key).valid then (s.slot key).eligibleAt else max (s.slot key).eligibleAt s.now, pl⟩
    else s.slot k := State.slot_writeSlot _ _ _ _

/-- The slots after TERMGL or TERMGA (40_registry_commands.md R137, R139). -/
theorem clearSlot_slot (key : SlotKey) (s : State) (k : SlotKey) :
    (clearSlot key s).slot k =
      if k = key then { Slot.reset key.kind with eligibleAt := (s.slot key).eligibleAt } else s.slot k :=
  State.slot_writeSlot _ _ _ _

/-- A command moves `eligible_at` of a key only where it creates the slot. -/
theorem commandRule_eligibleAt {P : Params} {i : Instr} {s t : State} (h : commandRule P i s = .ok t) (k : SlotKey) :
    (t.slot k).eligibleAt = (s.slot k).eligibleAt ∨
      ((s.slot k).valid = false ∧ (t.slot k).valid = true ∧
        (t.slot k).eligibleAt = max (s.slot k).eligibleAt s.now) := by
  obtain rfl | ⟨r, v, _, rfl⟩ | ⟨_, ⟨key, pl, _, _, rfl⟩ | ⟨key, _, _, rfl⟩ | ⟨p, _, _, rfl⟩ | ⟨_, rfl⟩ |
    ⟨op, cv, v, _, _, _, _, _, _, rfl⟩ | ⟨v, _, rfl⟩ | ⟨v, rfl⟩⟩ := commandRule_cases h
  case inr.inr.inl =>
    by_cases hk : k = key
    · subst hk
      cases hv : (s.slot k).valid <;> simp [setSlot_slot, hv]
    · simp [setSlot_slot, hk]
  case inr.inr.inr.inl =>
    by_cases hk : k = key <;> simp [clearSlot_slot, hk]
  all_goals exact .inl rfl

/-- So does the HOST's step, whatever the word. -/
theorem hostStep_eligibleAt (P : Params) (w : Word) (s : State) (k : SlotKey) :
    ((hostStep P w s).slot k).eligibleAt = (s.slot k).eligibleAt ∨
      ((s.slot k).valid = false ∧ ((hostStep P w s).slot k).valid = true ∧
        ((hostStep P w s).slot k).eligibleAt = max (s.slot k).eligibleAt s.now) := by
  obtain ⟨e, h⟩ | ⟨i, h⟩ := hostStep_cases P w s
  · exact .inl (by rw [h, emit_slot])
  · exact commandRule_eligibleAt h k

/-! ### POP and the CLOCK -/

/-- POP writes the event queue and the labels only (60_exceptions.md R327). -/
theorem popStep_frame (s : State) : ∃ q out, popStep s = { s with evq := q, out := out } := by
  unfold popStep
  split
  · exact ⟨_, _, rfl⟩
  · exact ⟨_, _, rfl⟩

/-- The CLOCK writes NOW, which it never lowers, and the labels only (10_state.md R31). -/
theorem clockStep_frame (P : Params) (dt : Nat) (s : State) :
    ∃ n out, s.now ≤ n ∧ clockStep P dt s = { s with now := n, out := out } := by
  unfold clockStep
  split
  · exact ⟨s.now + dt, s.out, Nat.le_add_right _ _, rfl⟩
  · exact ⟨s.now, _, Nat.le_refl _, rfl⟩

/-! ### The PSB's step -/

/-- The PSB's step is the enabled rule's, or none (41_scheduler.md R156). -/
theorem psbStep_of_rule {P : Params} {s : State} {r : PsbRule} (h : psbRule P s = some r) :
    psbStep P s = runPsbRule P r s := by simp [psbStep, h]

theorem psbStep_of_none {P : Params} {s : State} (h : psbRule P s = none) : psbStep P s = passedOver s := by
  simp [psbStep, h]

/-- No step of the PSB is enabled while a transaction is in flight (41_scheduler.md R150). -/
theorem psbRule_of_infl {P : Params} {s : State} {f : InFlight} (h : s.infl = some f) : psbRule P s = none := by
  simp [psbRule, psbRuleAt, State.busy, h]

/-- MODE_SWITCH out of SERVICE, with a session or without one (43_service_mode.md R227). -/
theorem switchOut_frame (P : Params) (s : State) :
    ∃ q o, switchOut P s = { s with mode := .normal, sm := SmRegs.idle s.sm.proto, evq := q, evovf := o } := by
  by_cases h : s.sm.op = .none
  · exact ⟨_, _, switchOut_of_none h⟩
  · exact ⟨_, _, switchOut_of_session h⟩

/-- RETRY writes the session only (43_service_mode.md R239). -/
theorem smRetry_frame (P : Params) (s : State) : ∃ r, smRetry P s = { s with sm := r } := by
  unfold smRetry
  split
  · exact ⟨_, rfl⟩
  · exact ⟨_, rfl⟩

/-- A rule of the PSB moves no time, no pause, no counter and no register. -/
theorem runPsbRule_frame (P : Params) (r : PsbRule) (s : State) :
    ∃ a m f r' q o j out, runPsbRule P r s = { s with
      arena := a, mode := m, infl := f, sm := r', evq := q, evovf := o, driver := j, out := out } := by
  cases r with
  | schedSelect key => exact ⟨_, _, _, _, _, _, _, _, trig_eq _ _⟩
  | transmit => exact ⟨_, _, _, _, _, _, _, _, trig_eq _ _⟩
  | switchOut =>
    obtain ⟨q, o, h⟩ := switchOut_frame P s
    exact ⟨_, _, _, _, _, _, _, _, h⟩
  | retry =>
    obtain ⟨r, h⟩ := smRetry_frame P s
    exact ⟨_, _, _, _, _, _, _, _, h⟩
  | switchIn | s88Start | selectOp | sample | done | failed => exact ⟨_, _, _, _, _, _, _, _, rfl⟩

/-- Only the two mode switches write MODE (43_service_mode.md R226, R227). -/
theorem runPsbRule_mode {P : Params} {r : PsbRule} (s : State) (hin : r ≠ .switchIn) (hout : r ≠ .switchOut) :
    (runPsbRule P r s).mode = s.mode := by
  cases r with
  | switchIn => exact absurd rfl hin
  | switchOut => exact absurd rfl hout
  | schedSelect key => simp [runPsbRule, schedSelect, trig_eq]
  | transmit => simp [runPsbRule, smTransmit, trig_eq]
  | retry =>
    obtain ⟨r, h⟩ := smRetry_frame P s
    rw [runPsbRule, h]
  | s88Start | selectOp | sample | done | failed => rfl

/-- The slots after SCHED_SELECT: the granted one is clean (41_scheduler.md R157). -/
theorem schedSelect_slot (P : Params) (key : SlotKey) (s : State) (k : SlotKey) :
    (schedSelect P key s).slot k = if k = key then { s.slot key with dirty := false } else s.slot k := by
  simp [schedSelect]

/-- A rule of the PSB writes no part of a slot but its dirty flag. -/
theorem runPsbRule_slot (P : Params) (r : PsbRule) (s : State) (k : SlotKey) :
    ∃ b, (runPsbRule P r s).slot k = { s.slot k with dirty := b } := by
  cases r with
  | schedSelect key =>
    by_cases hk : k = key
    · exact ⟨false, by rw [runPsbRule, schedSelect_slot, if_pos hk, hk]⟩
    · exact ⟨(s.slot k).dirty, by rw [runPsbRule, schedSelect_slot, if_neg hk]⟩
  | transmit => exact ⟨(s.slot k).dirty, by simp [runPsbRule, smTransmit]⟩
  | switchOut =>
    obtain ⟨q, o, h⟩ := switchOut_frame P s
    exact ⟨(s.slot k).dirty, by rw [runPsbRule, h]; rfl⟩
  | retry =>
    obtain ⟨r, h⟩ := smRetry_frame P s
    exact ⟨(s.slot k).dirty, by rw [runPsbRule, h]; rfl⟩
  | switchIn | s88Start | selectOp | sample | done | failed => exact ⟨(s.slot k).dirty, rfl⟩

/-- The PSB's step moves no time and no pause. -/
theorem psbStep_frame (P : Params) (s : State) :
    ∃ a m f r q o j out, psbStep P s = { s with
      arena := a, mode := m, infl := f, sm := r, evq := q, evovf := o, driver := j, out := out } := by
  cases h : psbRule P s with
  | none => rw [psbStep_of_none h]; exact ⟨_, _, _, _, _, _, _, _, rfl⟩
  | some r => rw [psbStep_of_rule h]; exact runPsbRule_frame P r s

@[simp] theorem psbStep_now (P : Params) (s : State) : (psbStep P s).now = s.now := by
  obtain ⟨_, _, _, _, _, _, _, _, h⟩ := psbStep_frame P s; rw [h]
@[simp] theorem psbStep_pauseUntil (P : Params) (s : State) : (psbStep P s).pauseUntil = s.pauseUntil := by
  obtain ⟨_, _, _, _, _, _, _, _, h⟩ := psbStep_frame P s; rw [h]

/-- The PSB's step keeps `eligible_at` of every key. -/
@[simp] theorem psbStep_eligibleAt (P : Params) (s : State) (k : SlotKey) :
    ((psbStep P s).slot k).eligibleAt = (s.slot k).eligibleAt := by
  cases h : psbRule P s with
  | none => rw [psbStep_of_none h]; rfl
  | some r =>
    obtain ⟨b, hb⟩ := runPsbRule_slot P r s k
    rw [psbStep_of_rule h, hb]

/-! ### The DRIVER's completion -/

/-- An enabled completion has a transaction to complete; a registry packet completes at its start or later
(60_exceptions.md R331). -/
theorem driverEnabled_infl {P : Params} {s : State} {d : Draw} (h : driverEnabled P s d = true) :
    ∃ f, s.infl = some f ∧ ∀ key w gap pause t, f = .cmd key w gap pause t → t ≤ s.now := by
  unfold driverEnabled at h
  cases hf : s.infl with
  | none => simp [hf] at h
  | some f =>
    refine ⟨f, rfl, ?_⟩
    rintro key w gap pause t rfl
    simpa [hf] using h

/-- MODE after a completion (60_exceptions.md R321, R323). -/
def modeAfter (st : TxStatus) (m : Mode) : Mode := if st = .fault then .halted else m

@[simp] theorem modeAfter_fault (m : Mode) : modeAfter .fault m = .halted := rfl

theorem modeAfter_of_ne {st : TxStatus} (m : Mode) (h : st ≠ .fault) : modeAfter st m = m := if_neg h

/-- `restoreDirty` writes no part of a slot but its dirty flag (41_scheduler.md R160). -/
theorem restoreDirty_slot (key : SlotKey) (w : Bool) (s : State) (k : SlotKey) :
    ∃ b, (restoreDirty key w s).slot k = { s.slot k with dirty := b } := by
  unfold restoreDirty
  split
  · by_cases hk : k = key
    · exact ⟨_, by rw [State.slot_writeSlot, if_pos hk, hk]⟩
    · exact ⟨(s.slot k).dirty, by rw [State.slot_writeSlot, if_neg hk]⟩
  · exact ⟨(s.slot k).dirty, rfl⟩

/-- `restoreDirty` writes the slots only. -/
theorem restoreDirty_frame (key : SlotKey) (w : Bool) (s : State) :
    ∃ a, restoreDirty key w s = { s with arena := a } := by
  unfold restoreDirty
  split
  · exact ⟨_, rfl⟩
  · exact ⟨s.arena, rfl⟩

/-- What SCHED_DONE leaves in each field but the slots, for every status (41_scheduler.md R160 to R166). -/
theorem schedDone_frame (P : Params) (key : SlotKey) (w : Bool) (gap pause : Nat) (st : TxStatus) (s : State) :
    ∃ a q o, schedDone P key w gap pause st s = { s with
      arena := a, infl := none, driver := none, pauseUntil := s.pauseUntil.raise key.proto (s.now + pause),
      mode := modeAfter st s.mode, pktCnt := satInc s.pktCnt, s88Last := s.now, evq := q, evovf := o } := by
  cases st with
  | ok => exact ⟨_, _, _, rfl⟩
  | fault => exact ⟨_, _, _, rfl⟩
  | timingMiss =>
    obtain ⟨a, h⟩ := restoreDirty_frame key w (schedTimers key gap pause s)
    simp only [schedDone, h]
    exact ⟨_, _, _, rfl⟩

/-- The slots after `schedTimers`: the key's `eligible_at` is the completion time plus the gap (41_scheduler.md R161). -/
theorem schedTimers_slot (key : SlotKey) (gap pause : Nat) (s : State) (k : SlotKey) :
    (schedTimers key gap pause s).slot k =
      if k = key then { s.slot key with eligibleAt := s.now + gap } else s.slot k := by
  simp [schedTimers]

/-- SCHED_DONE sets `eligible_at` of its key, and no other's (41_scheduler.md R160, R161). -/
theorem schedDone_eligibleAt (P : Params) (key : SlotKey) (w : Bool) (gap pause : Nat) (st : TxStatus) (s : State)
    (k : SlotKey) :
    ((schedDone P key w gap pause st s).slot k).eligibleAt =
      if k = key then s.now + gap else (s.slot k).eligibleAt := by
  have htimers : ((schedTimers key gap pause s).slot k).eligibleAt =
      if k = key then s.now + gap else (s.slot k).eligibleAt := by
    rw [schedTimers_slot, apply_ite Slot.eligibleAt]
  cases st with
  | ok => exact htimers
  | fault => exact htimers
  | timingMiss =>
    obtain ⟨b, hb⟩ := restoreDirty_slot key w (schedTimers key gap pause s) k
    rw [schedDone, emit_slot, hb]
    exact htimers

/-- A completion that is no registry packet's writes no slot, no pause and no time: the transaction is over, and the mode,
the counters, the frames, the session, the event queue and the labels may have changed (43_service_mode.md R234, R237;
45_s88_mfx.md R294). -/
theorem complete_frame_of_not_cmd {P : Params} {d : Draw} {s : State} {f : InFlight} (h : s.infl = some f)
    (hf : ∀ key w gap pause t, f ≠ .cmd key w gap pause t) :
    ∃ c l u v r q o out, complete P d s = { s with
      infl := none, driver := none, mode := modeAfter d.status s.mode, pktCnt := c, s88Last := l, s88Prev := u, s88Cur := v,
      sm := r, evq := q, evovf := o, out := out } := by
  obtain ⟨st, ack, vec⟩ := d
  cases f with
  | cmd key w gap pause t => exact absurd rfl (hf key w gap pause t)
  | smpkt t =>
    simp only [complete, h]
    cases st <;> exact ⟨_, _, _, _, _, _, _, _, rfl⟩
  | ack t =>
    simp only [complete, h]
    cases st <;> exact ⟨_, _, _, _, _, _, _, _, rfl⟩
  | s88 t =>
    simp only [complete, h]
    cases st with
    | ok =>
      obtain ⟨q, o, he⟩ := emitAll_frame P (s88Events P s.s88Cur (s88Frame P vec))
        (s.finish.countPoll.withFrame s.s88Cur (s88Frame P vec))
      simp only [s88Done, he, trig_eq]
      split <;> exact ⟨_, _, _, _, _, _, _, _, rfl⟩
    | timingMiss => exact ⟨_, _, _, _, _, _, _, _, rfl⟩
    | fault => exact ⟨_, _, _, _, _, _, _, _, rfl⟩

/-- The completion of a registry packet is SCHED_DONE (60_exceptions.md R331, 41_scheduler.md R160). -/
theorem complete_cmd {P : Params} {d : Draw} {s : State} {key : SlotKey} {w : Bool} {gap pause t : Nat}
    (h : s.infl = some (.cmd key w gap pause t)) :
    complete P d s = schedDone P key w gap pause d.status s := by
  simp only [complete, h]

/-- `raise` lowers no `PAUSE_UNTIL` (41_scheduler.md R163). -/
theorem PauseRegs.get_le_raise (r : PauseRegs) (p q : Proto) (t : Nat) : r.get q ≤ (r.raise p t).get q := by
  cases p <;> cases q <;> simp [PauseRegs.get, PauseRegs.raise]

/-- A completion of either sort ends the transaction, moves no time and lowers no pause. -/
theorem complete_frame {P : Params} {d : Draw} {s : State} {f : InFlight} (h : s.infl = some f) :
    ∃ a p c l u v r q o out, (∀ x, s.pauseUntil.get x ≤ p.get x) ∧ complete P d s = { s with
      arena := a, pauseUntil := p, infl := none, driver := none, mode := modeAfter d.status s.mode, pktCnt := c,
      s88Last := l, s88Prev := u, s88Cur := v, sm := r, evq := q, evovf := o, out := out } := by
  by_cases hf : ∃ key w gap pause t, f = .cmd key w gap pause t
  · obtain ⟨key, w, gap, pause, t, rfl⟩ := hf
    obtain ⟨a, q, o, hs⟩ := schedDone_frame P key w gap pause d.status s
    exact ⟨_, _, _, _, _, _, _, _, _, _, fun _ => PauseRegs.get_le_raise _ _ _ _, (complete_cmd h).trans hs⟩
  · obtain ⟨_, _, _, _, _, _, _, _, hs⟩ := complete_frame_of_not_cmd (P := P) (d := d) h (by simpa using hf)
    exact ⟨_, _, _, _, _, _, _, _, _, _, fun _ => Nat.le_refl _, hs⟩

/-- A completion moves `eligible_at` of a key only where it completes a packet of this key. -/
theorem complete_eligibleAt {P : Params} {d : Draw} {s : State} {f : InFlight} (h : s.infl = some f) (k : SlotKey) :
    ((complete P d s).slot k).eligibleAt = (s.slot k).eligibleAt ∨
      ∃ w gap pause t, f = .cmd k w gap pause t ∧ ((complete P d s).slot k).eligibleAt = s.now + gap := by
  by_cases hf : ∃ key w gap pause t, f = .cmd key w gap pause t
  · obtain ⟨key, w, gap, pause, t, rfl⟩ := hf
    rw [complete_cmd h, schedDone_eligibleAt]
    by_cases hk : k = key
    · subst hk
      exact .inr ⟨w, gap, pause, t, rfl, if_pos rfl⟩
    · exact .inl (if_neg hk)
  · obtain ⟨_, _, _, _, _, _, _, _, hs⟩ := complete_frame_of_not_cmd (P := P) (d := d) h (by simpa using hf)
    exact .inl (by rw [hs]; rfl)

/-- The DRIVER's step completes the transaction in flight, or is passed over (60_exceptions.md R331). -/
theorem driverStep_cases (P : Params) (d : Draw) (s : State) :
    driverStep P d s = passedOver s ∨
      ∃ f, s.infl = some f ∧ (∀ key w gap pause t, f = .cmd key w gap pause t → t ≤ s.now) ∧
        driverStep P d s = complete P d s := by
  unfold driverStep
  split
  next h =>
    obtain ⟨f, hf, ht⟩ := driverEnabled_infl h
    exact .inr ⟨f, hf, ht, rfl⟩
  next => exact .inl rfl

end Sys2Proof.Machine

/-! ## Steps of the whole machine (10_state.md R25, R27, R29) -/

namespace Sys2Proof.Machine

/-- The state a step leaves is the agent's step on the state with the offer taken. -/
theorem step_eq_next_iff {s t : State} : step s = .next t ↔ t = agentStep params (nextOffer s) (takeOffer s) := by
  rw [step_eq, Host.Outcome.next.injEq, stepWith, eq_comm]

theorem nextState_eq (s : State) : nextState s = agentStep params (nextOffer s) (takeOffer s) := by
  rw [nextState, step_eq]
  rfl

/-! ### MODE -/

/-- The sequencer never switches the mode (43_service_mode.md R230). -/
theorem sequencerRule_ne_switch {s : State} {t : Nat} {r : PsbRule} (h : sequencerRule s t = some r) :
    r ≠ .switchIn ∧ r ≠ .switchOut := by
  obtain ⟨_, rfl⟩ | ⟨_, rfl⟩ | ⟨_, _, rfl⟩ | ⟨_, rfl⟩ | ⟨_, rfl⟩ | ⟨_, rfl⟩ := sequencerRule_cases h
  all_goals exact ⟨PsbRule.noConfusion, PsbRule.noConfusion⟩

/-- The cases in which an agent's step changes MODE (10_state.md R27, 60_exceptions.md R320, R323). -/
theorem agentStep_mode_cases {P : Params} {a : AgentStep} {s : State} (h : (agentStep P a s).mode ≠ s.mode) :
    (a = .psb ∧ s.infl = none ∧ s.mode = .normal ∧ s.target = true ∧ (agentStep P a s).mode = .service) ∨
    (a = .psb ∧ s.infl = none ∧ s.mode = .service ∧ s.target = false ∧ (agentStep P a s).mode = .normal) ∨
    (∃ d f, a = .driver d ∧ s.infl = some f ∧ d.status = .fault ∧ (agentStep P a s).mode = .halted) ∨
    (a = .reset ∧ (agentStep P a s).mode = .normal) := by
  cases a with
  | host w => exact absurd (hostStep_mode P w s) h
  | pop =>
    obtain ⟨q, out, hs⟩ := popStep_frame s
    exact absurd (by rw [agentStep, hs]) h
  | clock dt =>
    obtain ⟨n, out, _, hs⟩ := clockStep_frame P dt s
    exact absurd (by rw [agentStep, hs]) h
  | reset => exact .inr (.inr (.inr ⟨rfl, rfl⟩))
  | psb =>
    cases hr : psbRule P s with
    | none => exact absurd (by rw [agentStep, psbStep_of_none hr]; rfl) h
    | some r =>
      have hs : agentStep P .psb s = runPsbRule P r s := psbStep_of_rule hr
      rw [hs] at h ⊢
      obtain ⟨hi, hc⟩ := psbRuleAt_cases hr
      obtain ⟨hm, ht, rfl⟩ | ⟨hm, ht, rfl⟩ | ⟨_, _, rfl⟩ | ⟨_, _, _, k, _, rfl⟩ | ⟨_, _, _, hseq⟩ := hc
      · exact .inl ⟨rfl, hi, hm, ht, rfl⟩
      · exact .inr (.inl ⟨rfl, hi, hm, ht, rfl⟩)
      · exact absurd (runPsbRule_mode s (by simp) (by simp)) h
      · exact absurd (runPsbRule_mode s (by simp) (by simp)) h
      · exact absurd (runPsbRule_mode s (sequencerRule_ne_switch hseq).1 (sequencerRule_ne_switch hseq).2) h
  | driver d =>
    obtain hs | ⟨f, hf, _, hs⟩ := driverStep_cases P d s
    · exact absurd (by rw [agentStep, hs]; rfl) h
    · obtain ⟨_, _, _, _, _, _, _, _, _, _, _, hc⟩ := complete_frame (P := P) (d := d) hf
      have hm : (agentStep P (.driver d) s).mode = modeAfter d.status s.mode := by rw [agentStep, hs, hc]
      have hfault : d.status = .fault := by
        by_contra hne
        exact h (hm.trans (modeAfter_of_ne _ hne))
      exact .inr (.inr (.inl ⟨d, f, rfl, hf, hfault, by rw [hm, hfault, modeAfter_fault]⟩))

/-- Settles O24, by the cases of the agents' steps. -/
theorem modeChangesOnlyBySwitchHaltOrReset : Obligations.ModeChangesOnlyBySwitchHaltOrReset := by
  intro s t hstep hmode
  obtain rfl := step_eq_next_iff.1 hstep
  rw [← takeOffer_mode s] at hmode
  simpa only [takeOffer_mode, takeOffer_infl, takeOffer_target] using agentStep_mode_cases hmode

/-! ### The transaction in flight -/

/-- With a transaction in flight, no agent but the DRIVER and reset writes INFL or the DRIVER's job: the PSB has no step
enabled then, and the other agents write neither (10_state.md R29, 60_exceptions.md R330). -/
theorem agentStep_keeps_flight {P : Params} {a : AgentStep} {s : State} {f : InFlight} (hf : s.infl = some f)
    (hd : ∀ d, a ≠ .driver d) (hr : a ≠ .reset) :
    (agentStep P a s).infl = s.infl ∧ (agentStep P a s).driver = s.driver := by
  cases a with
  | host w => exact ⟨hostStep_infl P w s, hostStep_driver P w s⟩
  | pop =>
    obtain ⟨q, out, hs⟩ := popStep_frame s
    rw [agentStep, hs]
    exact ⟨rfl, rfl⟩
  | psb =>
    rw [agentStep, psbStep_of_none (psbRule_of_infl hf)]
    exact ⟨rfl, rfl⟩
  | clock dt =>
    obtain ⟨n, out, _, hs⟩ := clockStep_frame P dt s
    rw [agentStep, hs]
    exact ⟨rfl, rfl⟩
  | driver d => exact absurd rfl (hd d)
  | reset => exact absurd rfl hr

/-- Settles O52, by the frame of each agent's step. -/
theorem packetInFlightIsNeverAltered : Obligations.PacketInFlightIsNeverAltered := by
  intro s t f hf hstep hd hr
  obtain rfl := step_eq_next_iff.1 hstep
  obtain ⟨hinfl, hdriver⟩ := agentStep_keeps_flight (P := params) (s := takeOffer s) (by simpa using hf) hd hr
  exact ⟨by rw [hinfl, takeOffer_infl, hf], by rw [hdriver, takeOffer_driver]⟩

/-! ### The timers -/

/-- No agent's step but reset lowers NOW or a `PAUSE_UNTIL` (10_state.md R30, R31). -/
theorem agentStep_now_pause_le {P : Params} {a : AgentStep} {s : State} (hr : a ≠ .reset) :
    s.now ≤ (agentStep P a s).now ∧ ∀ p, s.pauseUntil.get p ≤ (agentStep P a s).pauseUntil.get p := by
  cases a with
  | host w => simp [agentStep]
  | psb => simp [agentStep]
  | pop =>
    obtain ⟨q, out, hs⟩ := popStep_frame s
    simp [agentStep, hs]
  | clock dt =>
    obtain ⟨n, out, hn, hs⟩ := clockStep_frame P dt s
    simpa [agentStep, hs] using hn
  | driver d =>
    obtain hs | ⟨f, hf, _, hs⟩ := driverStep_cases P d s
    · simp [agentStep, hs, passedOver]
    · obtain ⟨_, _, _, _, _, _, _, _, _, _, hp, hc⟩ := complete_frame (P := P) (d := d) hf
      rw [agentStep, hs, hc]
      exact ⟨Nat.le_refl _, hp⟩
  | reset => exact absurd rfl hr

/-- The step completes a packet of this key, and `eligible_at` is its time plus the transaction's gap (10_state.md R25). -/
def CompletionSets (a : AgentStep) (s t : State) (k : SlotKey) : Prop :=
  ∃ d w gap pause t0, a = .driver d ∧ s.infl = some (.cmd k w gap pause t0) ∧ t0 ≤ s.now ∧
    (t.slot k).eligibleAt = s.now + gap

/-- The step creates the slot of this key, and `eligible_at` is raised to its time (10_state.md R25). -/
def CreationSets (s t : State) (k : SlotKey) : Prop :=
  (s.slot k).valid = false ∧ (t.slot k).valid = true ∧ (t.slot k).eligibleAt = max (s.slot k).eligibleAt s.now

/-- The three things a step that is no reset can do to `eligible_at` of a key (10_state.md R25 (ii), (iv)). -/
theorem agentStep_eligibleAt_cases (P : Params) {a : AgentStep} (s : State) (hr : a ≠ .reset) (k : SlotKey) :
    ((agentStep P a s).slot k).eligibleAt = (s.slot k).eligibleAt ∨
      CompletionSets a s (agentStep P a s) k ∨ CreationSets s (agentStep P a s) k := by
  cases a with
  | host w => exact (hostStep_eligibleAt P w s k).imp id .inr
  | psb => exact .inl (psbStep_eligibleAt P s k)
  | pop =>
    obtain ⟨q, out, hs⟩ := popStep_frame s
    exact .inl (by rw [agentStep, hs]; rfl)
  | clock dt =>
    obtain ⟨n, out, _, hs⟩ := clockStep_frame P dt s
    exact .inl (by rw [agentStep, hs]; rfl)
  | driver d =>
    obtain hs | ⟨f, hf, ht, hs⟩ := driverStep_cases P d s
    · exact .inl (by rw [agentStep, hs]; rfl)
    · obtain hk | ⟨w, gap, pause, t, rfl, hk⟩ := complete_eligibleAt (P := P) (d := d) hf k
      · exact .inl (by rw [agentStep, hs, hk])
      · exact .inr (.inl ⟨d, w, gap, pause, t, rfl, hf, ht _ _ _ _ _ rfl, by rw [agentStep, hs, hk]⟩)
  | reset => exact absurd rfl hr

/-- The same for a step of the machine. -/
theorem nextState_eligibleAt_cases {s : State} (hr : nextOffer s ≠ .reset) (k : SlotKey) :
    ((nextState s).slot k).eligibleAt = (s.slot k).eligibleAt ∨
      CompletionSets (nextOffer s) s (nextState s) k ∨ CreationSets s (nextState s) k := by
  rw [nextState_eq]
  simpa only [CompletionSets, CreationSets, takeOffer_slot, takeOffer_infl, takeOffer_now] using
    agentStep_eligibleAt_cases params (takeOffer s) hr k

theorem nextState_of_step {s t : State} (h : step s = .next t) : nextState s = t := by
  rw [nextState, h]

/-- While a packet of a key is in flight, the `eligible_at` of the key is not in the future (41_scheduler.md R162). -/
theorem Inv.eligibleAt_le_now {P : Params} {s : State} (h : Inv P s) {k : SlotKey} {w : Bool} {gap pause t : Nat}
    (hf : s.infl = some (.cmd k w gap pause t)) : (s.slot k).eligibleAt ≤ s.now := by
  have hflight := h.flight
  rw [hf] at hflight
  obtain ⟨_, _, hle, _⟩ := hflight
  exact hle

/-- Settles O53: NOW and the pauses from every state; an `eligible_at` that a completion sets was not in the future before, by
the invariant. -/
theorem timersNeverDecrease : Obligations.TimersNeverDecrease := by
  intro s t hinv hstep hr
  obtain ⟨hnow, hpause⟩ := agentStep_now_pause_le (P := params) (s := takeOffer s) hr
  rw [← step_eq_next_iff.1 hstep] at hnow hpause
  refine ⟨by simpa using hnow, fun k => ?_, by simpa using hpause⟩
  have hk := nextState_eligibleAt_cases hr k
  rw [nextState_of_step hstep] at hk
  obtain hsame | ⟨_, _, gap, _, _, _, hf, _, hset⟩ | ⟨_, _, hset⟩ := hk
  · exact hsame.ge
  · have := hinv.eligibleAt_le_now hf
    omega
  · omega

end Sys2Proof.Machine

/-! ## Where an eligible_at comes from (10_state.md R25 (iv)) -/

namespace Sys2Proof.Machine

/-! ### The gap a packet in flight carries is its protocol's -/

/-- The gap of a registry packet in flight is the one of its protocol (42_encoder_mux.md R202). -/
def FlightGapOk (P : Params) (o : Option InFlight) : Prop :=
  ∀ key w gap pause t, o = some (.cmd key w gap pause t) → gap = gapUs P key.proto

theorem FlightGapOk.none (P : Params) : FlightGapOk P none := fun _ _ _ _ _ h => nomatch h

/-- SCHED_SELECT starts a packet with the gap of its protocol (41_scheduler.md R157, 42_encoder_mux.md R202). -/
theorem schedSelect_infl (P : Params) (key : SlotKey) (s : State) :
    (schedSelect P key s).infl = some (.cmd key (s.slot key).dirty (gapUs P key.proto)
      (P.pauseUs key.proto key.kind (s.slot key).payload) s.now) := by
  simp only [schedSelect, trig_eq, State.begin_infl]
  rfl

/-- A rule of the PSB leaves INFL sound. -/
theorem runPsbRule_flightGapOk {P : Params} (r : PsbRule) {s : State} (h : FlightGapOk P s.infl) :
    FlightGapOk P (runPsbRule P r s).infl := by
  cases r with
  | schedSelect key =>
    rintro key' w gap pause t ht
    rw [runPsbRule, schedSelect_infl] at ht
    cases ht
    rfl
  | transmit =>
    rintro key w gap pause t ht
    simp [runPsbRule, smTransmit, trig_eq] at ht
  | s88Start | sample => exact fun _ _ _ _ _ ht => nomatch ht
  | switchOut =>
    obtain ⟨q, o, hs⟩ := switchOut_frame P s
    rwa [runPsbRule, hs]
  | retry =>
    obtain ⟨r, hs⟩ := smRetry_frame P s
    rwa [runPsbRule, hs]
  | switchIn | selectOp | done | failed => exact h

/-- Every agent's step leaves INFL sound. -/
theorem agentStep_flightGapOk {P : Params} (a : AgentStep) {s : State} (h : FlightGapOk P s.infl) :
    FlightGapOk P (agentStep P a s).infl := by
  cases a with
  | host w => rwa [agentStep, hostStep_infl]
  | pop =>
    obtain ⟨q, out, hs⟩ := popStep_frame s
    rwa [agentStep, hs]
  | psb =>
    rw [agentStep]
    cases hr : psbRule P s with
    | none => rwa [psbStep_of_none hr]
    | some r =>
      rw [psbStep_of_rule hr]
      exact runPsbRule_flightGapOk r h
  | clock dt =>
    obtain ⟨n, out, _, hs⟩ := clockStep_frame P dt s
    rwa [agentStep, hs]
  | driver d =>
    obtain hs | ⟨f, hf, _, hs⟩ := driverStep_cases P d s
    · rwa [agentStep, hs]
    · obtain ⟨_, _, _, _, _, _, _, _, _, _, _, hc⟩ := complete_frame (P := P) (d := d) hf
      rw [agentStep, hs, hc]
      exact FlightGapOk.none P
  | reset => exact FlightGapOk.none P

/-! ### Runs -/

/-- The last of n + 1 steps is taken from the state after n. -/
theorem after_succ (n : Nat) (s : State) : after (n + 1) s = nextState (after n s) := by
  induction n generalizing s with
  | zero => rfl
  | succ n ih => rw [after, ih, ← after]

/-- What every step keeps holds along a run. -/
theorem after_induction {I : State → Prop} (hstep : ∀ s, I s → I (nextState s)) {s : State} (h : I s) (n : Nat) :
    I (after n s) := by
  induction n with
  | zero => exact h
  | succ n ih => rw [after_succ]; exact hstep _ ih

/-- Along a run INFL stays sound. -/
theorem after_flightGapOk {s : State} (h : FlightGapOk params s.infl) (n : Nat) :
    FlightGapOk params (after n s).infl := by
  refine after_induction (I := fun s => FlightGapOk params s.infl) (fun s hs => ?_) h n
  rw [nextState_eq]
  exact agentStep_flightGapOk _ (by rwa [takeOffer_infl])

/-! ### The account of a run -/

/-- The statement's protocol gap is the machine's (42_encoder_mux.md Table R205). -/
theorem gapOf_eq (p : Proto) : gapOf p = gapUs params p := by cases p <;> rfl

/-- Step m of the run from s accounts for the `eligible_at` x of the key: it completes a packet of the key, or creates its slot
(10_state.md R25 (iv)). -/
def AccountsFor (s : State) (key : SlotKey) (x m : Nat) : Prop :=
  (CompletesPacket key (after m s) ∧ x = (after m s).now + gapOf key.proto) ∨
    (((after m s).slot key).valid = false ∧ ((after (m + 1) s).slot key).valid = true ∧ x = (after m s).now)

/-- The cases of one step n of a run: `eligible_at` is kept, or 0 by a reset, or accounted for by this step. A creation
that finds `eligible_at` in the future keeps it. -/
theorem eligibleAt_after_succ_cases {s : State} (hgap : FlightGapOk params s.infl) (key : SlotKey) (n : Nat) :
    ((after (n + 1) s).slot key).eligibleAt = ((after n s).slot key).eligibleAt ∨
      ((after (n + 1) s).slot key).eligibleAt = 0 ∨
      AccountsFor s key ((after (n + 1) s).slot key).eligibleAt n := by
  have hnext := after_succ n s
  by_cases hr : nextOffer (after n s) = .reset
  · refine .inr (.inl ?_)
    rw [hnext, nextState_eq, hr]
    rfl
  · have hcases := nextState_eligibleAt_cases hr key
    rw [← hnext] at hcases
    obtain hsame | ⟨d, w, gap, pause, t, hd, hf, ht, hset⟩ | ⟨hbefore, hafter, hset⟩ := hcases
    · exact .inl hsame
    · have hg : gap = gapOf key.proto := (after_flightGapOk hgap n _ _ _ _ _ hf).trans (gapOf_eq _).symm
      exact .inr (.inr (.inl ⟨⟨d, w, gap, pause, t, hd, hf, ht⟩, hg ▸ hset⟩))
    · rcases max_choice ((after n s).slot key).eligibleAt (after n s).now with hmax | hmax
      · exact .inl (hset.trans hmax)
      · exact .inr (.inr (.inr ⟨hbefore, hafter, hset.trans hmax⟩))

/-- Along a run that starts with `eligible_at` 0, the value is 0 or accounted for by an earlier step. -/
theorem eligibleAt_accounted {s : State} (hgap : FlightGapOk params s.infl) {key : SlotKey}
    (h0 : (s.slot key).eligibleAt = 0) (n : Nat) :
    ((after n s).slot key).eligibleAt = 0 ∨ ∃ m, m < n ∧ AccountsFor s key ((after n s).slot key).eligibleAt m := by
  induction n with
  | zero => exact .inl h0
  | succ n ih =>
    obtain hsame | hzero | hset := eligibleAt_after_succ_cases hgap key n
    · rw [hsame]
      exact ih.imp id fun ⟨m, hm, hacc⟩ => ⟨m, hm.trans (Nat.lt_succ_self n), hacc⟩
    · exact .inl hzero
    · exact .inr ⟨n, Nat.lt_succ_self n, hset⟩

/-- Settles O57: the account of a run from the state after reset, where nothing is in flight and every `eligible_at` is 0. -/
theorem eligibleTimesAreAccountedFor : Obligations.EligibleTimesAreAccountedFor :=
  fun _ n _ => eligibleAt_accounted (FlightGapOk.none params) rfl n

end Sys2Proof.Machine

/-! ## The HOST's commands (20_memory.md R70, 40_registry_commands.md R130) -/

namespace Sys2Proof.Machine

/-! ### What each family of commands writes -/

/-- An accepted command by its family: a registry command (opcodes 0 to 4) writes the slots only; any other command
leaves them, and whatever session it creates keeps `SM_PROTO`. -/
theorem commandRule_family {P : Params} {i : Instr} {s t : State} (h : commandRule P i s = .ok t) :
    ((opcodeOf i).toNat ≤ 4 ∧ ∃ a, t = { s with arena := a }) ∨
      (4 < (opcodeOf i).toNat ∧ ∃ tg tp r c x q o,
        t = { s with target := tg, targetProto := tp, sm := r, ctrl := c, s88Maxint := x, evq := q, evovf := o } ∧
          r.proto = s.sm.proto) := by
  cases i with
  | nop z =>
    simp only [commandRule, nopRule, bind_eq_ok, pure_ok, Except.ok.injEq] at h
    obtain ⟨_, _, rfl⟩ := h
    exact .inl ⟨by simp [opcodeOf], _, rfl⟩
  | setgl p a sp d z f =>
    simp only [commandRule, setglRule, bind_eq_ok, pure_ok, Except.ok.injEq] at h
    obtain ⟨_, _, _, _, _, _, _, _, rfl⟩ := h
    exact .inl ⟨by simp [opcodeOf], _, rfl⟩
  | setga p a z po ac =>
    simp only [commandRule, setgaRule, bind_eq_ok, pure_ok, Except.ok.injEq] at h
    obtain ⟨_, _, _, _, rfl⟩ := h
    exact .inl ⟨by simp [opcodeOf], _, rfl⟩
  | termgl p a z =>
    simp only [commandRule, termglRule, bind_eq_ok, pure_ok, Except.ok.injEq] at h
    obtain ⟨_, _, _, _, _, _, rfl⟩ := h
    exact .inl ⟨by simp [opcodeOf], _, rfl⟩
  | termga p a z =>
    simp only [commandRule, termgaRule, bind_eq_ok, pure_ok, Except.ok.injEq] at h
    obtain ⟨_, _, _, _, _, _, rfl⟩ := h
    exact .inl ⟨by simp [opcodeOf], _, rfl⟩
  | smenter p z =>
    simp only [commandRule, smenterRule, bind_eq_ok, pure_ok, Except.ok.injEq] at h
    obtain ⟨_, _, _, _, _, _, _, _, rfl⟩ := h
    exact .inr ⟨by simp [opcodeOf], _, _, _, _, _, _, _, rfl, rfl⟩
  | smexit z =>
    simp only [commandRule, smexitRule, bind_eq_ok, pure_ok, Except.ok.injEq] at h
    obtain ⟨_, _, _, _, rfl⟩ := h
    exact .inr ⟨by simp [opcodeOf], _, _, _, _, _, _, _, rfl, rfl⟩
  | smwrite z cv v =>
    simp only [commandRule, smwriteRule, bind_eq_ok, pure_ok, Except.ok.injEq] at h
    obtain ⟨_, _, _, _, rfl⟩ := h
    exact .inr ⟨by simp [opcodeOf], _, _, _, _, _, _, _, rfl, rfl⟩
  | smread z cv z2 =>
    simp only [commandRule, smreadRule, bind_eq_ok, pure_ok, Except.ok.injEq] at h
    obtain ⟨_, _, _, _, rfl⟩ := h
    exact .inr ⟨by simp [opcodeOf], _, _, _, _, _, _, _, rfl, rfl⟩
  | cfgwr z r z2 v =>
    simp only [commandRule, cfgwrRule, bind_eq_ok, pure_ok, Except.ok.injEq] at h
    obtain ⟨_, _, _, _, _, _, rfl⟩ := h
    refine .inr ⟨by simp [opcodeOf], ?_⟩
    split
    · exact ⟨_, _, _, _, _, _, _, rfl, rfl⟩
    · exact ⟨_, _, _, _, _, _, _, rfl, rfl⟩
  | rdreg z r z2 z3 =>
    simp only [commandRule, rdregRule, bind_eq_ok] at h
    obtain ⟨_, _, h⟩ := h
    split at h
    · cases h
    · cases h
      exact .inr ⟨by simp [opcodeOf], _, _, _, _, _, _, _, rfl, rfl⟩

/-- A command is rejected, or leaves the state its rule gives (00_scope.md R13). -/
theorem execWith_cases (P : Params) (i : Instr) (s : State) :
    (∃ r, execWith P i s = reject P r (encode i) s) ∨ commandRule P i s = .ok (execWith P i s) := by
  unfold execWith
  cases commandRule P i s with
  | error r => exact .inl ⟨r, rfl⟩
  | ok t => exact .inr rfl

/-- Settles O19: a rejection writes the event queue only, and an accepted command what its family writes. -/
theorem commandsLeaveTheTransmissionAlone : Obligations.CommandsLeaveTheTransmissionAlone := by
  intro i s
  refine ⟨execWith params i s, exec_eq i s, ?_⟩
  obtain ⟨r, h⟩ | h := execWith_cases params i s
  · rw [h]
    exact ⟨rfl, rfl, rfl, rfl, rfl, rfl, rfl, rfl, rfl, rfl, rfl, rfl, rfl, fun _ => rfl, fun _ => rfl⟩
  · obtain ⟨hop, a, ht⟩ | ⟨hop, _, _, r, _, _, _, _, ht, hproto⟩ := commandRule_family h
    · rw [ht]
      exact ⟨rfl, rfl, rfl, rfl, rfl, rfl, rfl, rfl, rfl, rfl, rfl, rfl, rfl, fun _ => rfl,
        fun hge => absurd hop (Nat.not_le.2 hge)⟩
    · rw [ht]
      exact ⟨rfl, rfl, rfl, rfl, rfl, rfl, rfl, rfl, rfl, hproto, rfl, rfl, rfl,
        fun hle => absurd hop (Nat.not_lt.2 hle), fun _ => rfl⟩

/-! ### The step in which a word is presented -/

/-- The HOST's step is that of the word presented. -/
theorem step_of_host {s : State} {w : Word} (h : nextOffer s = .host w) :
    step s = .next (hostStep params w (takeOffer s)) := by
  rw [step_eq, stepWith, h, agentStep]

theorem hostStep_of_decode_ok (P : Params) {w : Word} {i : Instr} (h : decode w = .ok i) (s : State) :
    hostStep P w s = execWith P i s := by
  rw [hostStep, h]

/-- A word that is no command is rejected (30_encoding.md R103, 40_registry_commands.md R132 check 1). -/
theorem hostStep_of_undecoded (P : Params) {w : Word} (h : ∀ i, decode w ≠ .ok i) (s : State) :
    hostStep P w s = reject P .badOpcode w s := by
  unfold hostStep
  cases hd : decode w with
  | ok i => exact absurd hd (h i)
  | error e => rfl

theorem nextOffer_of_cons {s : State} {a : AgentStep} {rest : List AgentStep} (h : s.agenda = a :: rest) :
    nextOffer s = a := by
  rw [nextOffer, h]

theorem takeOffer_of_cons {s : State} {a : AgentStep} {rest : List AgentStep} (h : s.agenda = a :: rest) :
    takeOffer s = { s with agenda := rest, out := [] } := by
  rw [takeOffer, h]

theorem nextOffer_of_nil {s : State} (h : s.agenda = []) : nextOffer s = Config.environment s.drawn := by
  rw [nextOffer, h]

theorem takeOffer_of_nil {s : State} (h : s.agenda = []) :
    takeOffer s = { s with drawn := s.drawn + 1, out := [] } := by
  rw [takeOffer, h]

/-- The word placed by `withFetchWord` is the next offer. -/
theorem nextOffer_withFetchWord (s : State) (n w : Nat) :
    nextOffer (s.withFetchWord n w) = .host (BitVec.ofNat 64 (w % 2 ^ n)) := nextOffer_of_cons rfl

/-- Settles O6: the HOST's step by the decoder's two answers, the offers by the two forms of the agenda. -/
theorem stepRunsDecodedCommand : Obligations.StepRunsDecodedCommand := by
  refine ⟨fun s w i hw hd => ?_, fun s w hw hd => ?_, fun s a rest h => ⟨nextOffer_of_cons h, takeOffer_of_cons h⟩,
    fun s h => ⟨nextOffer_of_nil h, takeOffer_of_nil h⟩, nextOffer_withFetchWord⟩
  · rw [step_of_host hw, hostStep_of_decode_ok params hd, exec_eq]
  · rw [step_of_host hw, hostStep_of_undecoded params hd]

end Sys2Proof.Machine

/-! ## The MM address correction (20_memory.md R86, R87) -/

namespace Sys2Proof.Machine

/-- With the correction an MM address goes out reduced by `MM_SHIFT`, as a signed number (20_memory.md R86). -/
theorem wireAddr_mm_corrected (P : Params) (k : Kind) (a : BitVec 14) :
    wireAddr P true ⟨.mm, k, a⟩ = (a.toNat : Int) - P.mmShift := if_pos ⟨rfl, rfl⟩

/-- Without the correction every address goes out as it is. -/
theorem wireAddr_uncorrected (P : Params) (key : SlotKey) : wireAddr P false key = key.addr.toNat :=
  if_neg fun h => Bool.false_ne_true h.2

/-- The correction is for MM only. -/
theorem wireAddr_of_not_mm (P : Params) (c : Bool) {key : SlotKey} (h : key.proto ≠ .mm) :
    wireAddr P c key = key.addr.toNat := if_neg fun hc => h hc.1

/-- With `MM_SHIFT` 4, an address from 1 up goes out within the range on which the MM encoder is injective. Without the
correction 16379 is the last one that does. -/
theorem wireAddr_mm_bounds {P : Params} (hshift : P.mmShift = 4) (c : Bool) (k : Kind) {a : BitVec 14}
    (ha : 1 ≤ a.toNat) (hc : c = true ∨ a.toNat ≤ 16379) :
    -3 ≤ wireAddr P c ⟨.mm, k, a⟩ ∧ wireAddr P c ⟨.mm, k, a⟩ ≤ 16379 := by
  have hlt := a.isLt
  cases c with
  | true => rw [wireAddr_mm_corrected, hshift]; omega
  | false =>
    have hle : a.toNat ≤ 16379 := hc.resolve_left Bool.false_ne_true
    rw [wireAddr_uncorrected]
    exact ⟨by omega, Int.ofNat_le.2 hle⟩

/-- Equal MM packets of one kind and payload have equal wire addresses (20_memory.md R87). -/
theorem wireAddr_eq_of_mux_bits_eq {P : Params} (hshift : P.mmShift = 4) (hinj : P.MmInjective) {c c' : Bool} {k : Kind}
    {a b : BitVec 14} {pl : Payload} (ha : 1 ≤ a.toNat) (hb : 1 ≤ b.toNat) (hc : c = true ∨ a.toNat ≤ 16379)
    (hc' : c' = true ∨ b.toNat ≤ 16379)
    (h : (mux P c ⟨.mm, k, a⟩ pl).bits = (mux P c' ⟨.mm, k, b⟩ pl).bits) :
    wireAddr P c ⟨.mm, k, a⟩ = wireAddr P c' ⟨.mm, k, b⟩ := by
  obtain ⟨hal, hau⟩ := wireAddr_mm_bounds hshift c k ha hc
  obtain ⟨hbl, hbu⟩ := wireAddr_mm_bounds hshift c' k hb hc'
  exact hinj k _ _ pl hal hau hbl hbu h

/-- Packets of one protocol, kind and payload depend on the address through the wire address only (42_encoder_mux.md
R200). -/
theorem mux_bits_congr {P : Params} {c c' : Bool} {p : Proto} {k : Kind} {a b : BitVec 14} (pl : Payload)
    (h : wireAddr P c ⟨p, k, a⟩ = wireAddr P c' ⟨p, k, b⟩) :
    (mux P c ⟨p, k, a⟩ pl).bits = (mux P c' ⟨p, k, b⟩ pl).bits := by
  simp only [mux, h]

/-- Settles O35: the packets are compared by their wire addresses, where the shift is exact. -/
theorem mmCorrectionDoesNotAlias : Obligations.MmCorrectionDoesNotAlias := by
  intro P hshift hinj
  have hcorr : ∀ k (a : BitVec 14), wireAddr P true ⟨.mm, k, a⟩ = (a.toNat : Int) - 4 := fun k a => by
    rw [wireAddr_mm_corrected, hshift]; rfl
  have hplain : ∀ k (a : BitVec 14), wireAddr P false ⟨.mm, k, a⟩ = a.toNat := fun k a => wireAddr_uncorrected P _
  refine ⟨fun k a => ⟨hcorr k a, hplain k a⟩,
    fun c k a => ⟨wireAddr_of_not_mm P c nofun, wireAddr_of_not_mm P c nofun⟩,
    fun k a b pl ha ha4 hb hb' h => ?_, fun k a b pl ha hb hne h => ?_, fun k a b pl ha hab => ?_⟩
  · have hwire := wireAddr_eq_of_mux_bits_eq hshift hinj ha (by omega) (.inl rfl) (.inr (by omega)) h
    rw [hcorr, hplain] at hwire
    omega
  · have hwire := wireAddr_eq_of_mux_bits_eq hshift hinj ha hb (.inl rfl) (.inl rfl) h
    rw [hcorr, hcorr] at hwire
    exact hne (BitVec.eq_of_toNat_eq (by omega))
  · refine mux_bits_congr pl ?_
    rw [hcorr, hplain]
    omega

end Sys2Proof.Machine

/-! ## Command words and event words (30_encoding.md R100 to R107) -/

namespace Sys2Proof.Machine

/-! ### Fields of a word -/

/-- A field as a number (00_scope.md R10). -/
theorem field_toNat (w : Word) (lo len : Nat) : (field w lo len).toNat = w.toNat / 2 ^ lo % 2 ^ len := by
  rw [field, BitVec.extractLsb'_toNat, Nat.shiftRight_eq_div_pow]

/-- Two neighbouring fields side by side are one field. -/
theorem field_append_field (w : Word) {hi lo m n : Nat} (h : hi = lo + n) :
    field w hi m ++ field w lo n = field w lo (m + n) :=
  BitVec.extractLsb'_append_extractLsb'_eq_extractLsb' h

@[simp] theorem field_full (w : Word) : field w 0 64 = w := BitVec.extractLsb'_eq_self

/-- The word that is 1 exactly at the places of a field. -/
def fieldMask (lo len : Nat) : Word := (BitVec.allOnes len).setWidth 64 <<< lo

/-- The ones of a field's mask are the field's places. -/
theorem getLsbD_fieldMask {lo len i : Nat} (hi : i < 64) :
    (fieldMask lo len).getLsbD i = decide (lo ≤ i ∧ i < lo + len) := by
  simp only [fieldMask, BitVec.getLsbD_shiftLeft, BitVec.getLsbD_setWidth, BitVec.getLsbD_allOnes]
  grind

/-- A field is zero exactly when the word is zero under the field's mask. -/
theorem and_fieldMask_eq_zero (w : Word) {lo len : Nat} (h : lo + len ≤ 64) :
    w &&& fieldMask lo len = 0 ↔ field w lo len = 0 := by
  constructor
  · intro hmask
    ext i hi
    have hbit := congrArg (·.getLsbD (lo + i)) hmask
    rw [field, BitVec.getElem_extractLsb']
    simpa [getLsbD_fieldMask (show lo + i < 64 by omega), hi] using hbit
  · intro hfield
    ext i hi
    by_cases hin : lo ≤ i ∧ i < lo + len
    · have hbit : w.getLsbD i = false := by
        have hzero := congrArg (·.getLsbD (i - lo)) hfield
        simpa [field, show i - lo < len by omega, Nat.add_sub_cancel' hin.1] using hzero
      simp [← BitVec.getLsbD_eq_getElem, hbit]
    · simp [← BitVec.getLsbD_eq_getElem, getLsbD_fieldMask hi, hin]

/-- A word is zero under a mask of two parts exactly when it is zero under both. -/
theorem and_or_eq_zero (w m n : Word) : w &&& (m ||| n) = 0 ↔ w &&& m = 0 ∧ w &&& n = 0 := by
  rw [BitVec.and_or_distrib_left]
  exact BitVec.or_eq_zero_iff

/-! ### The two codings of a PROTO field -/

@[simp] theorem protoOfCode_protoFieldCode (p : Option Proto) : protoOfCode (protoFieldCode p) = p := by
  cases p with
  | none => rfl
  | some p => cases p <;> rfl

@[simp] theorem protoFieldCode_protoOfCode (c : BitVec 2) : protoFieldCode (protoOfCode c) = c := by
  revert c
  decide

/-! ### The decoder, said once -/

/-- The command a word is, one case per line of Table R103: the opcode, and each field at its place in R101. -/
inductive ReadsAs (w : Word) : Instr → Prop
  | nop (h : field w 60 4 = 0#4) : ReadsAs w (.nop (field w 0 60))
  | setgl (h : field w 60 4 = 1#4) : ReadsAs w
      (.setgl (protoOfCode (field w 58 2)) (field w 44 14) (field w 36 8) (field w 35 1) (field w 32 3) (field w 0 32))
  | setga (h : field w 60 4 = 2#4) : ReadsAs w
      (.setga (protoOfCode (field w 58 2)) (field w 44 14) (field w 2 42) (field w 1 1) (field w 0 1))
  | termgl (h : field w 60 4 = 3#4) : ReadsAs w
      (.termgl (protoOfCode (field w 58 2)) (field w 44 14) (field w 0 44))
  | termga (h : field w 60 4 = 4#4) : ReadsAs w
      (.termga (protoOfCode (field w 58 2)) (field w 44 14) (field w 0 44))
  | smenter (h : field w 60 4 = 5#4) : ReadsAs w (.smenter (protoOfCode (field w 58 2)) (field w 0 58))
  | smexit (h : field w 60 4 = 6#4) : ReadsAs w (.smexit (field w 0 60))
  | smwrite (h : field w 60 4 = 7#4) : ReadsAs w (.smwrite (field w 24 36) (field w 8 16) (field w 0 8))
  | smread (h : field w 60 4 = 8#4) : ReadsAs w (.smread (field w 24 36) (field w 8 16) (field w 0 8))
  | cfgwr (h : field w 60 4 = 9#4) : ReadsAs w
      (.cfgwr (field w 44 16) (field w 40 4) (field w 32 8) (field w 0 32))
  | rdreg (h : field w 60 4 = 10#4) : ReadsAs w
      (.rdreg (field w 44 16) (field w 40 4) (field w 32 8) (field w 0 32))

/-- What the decoder answers, command by command. -/
theorem decode_eq_ok_iff {w : Word} {i : Instr} : decode w = .ok i ↔ ReadsAs w i := by
  constructor
  · intro h
    unfold decode at h
    split at h
    all_goals cases h
    case h_1 hop => exact .nop (BitVec.eq_of_toNat_eq hop)
    case h_2 hop => exact .setgl (BitVec.eq_of_toNat_eq hop)
    case h_3 hop => exact .setga (BitVec.eq_of_toNat_eq hop)
    case h_4 hop => exact .termgl (BitVec.eq_of_toNat_eq hop)
    case h_5 hop => exact .termga (BitVec.eq_of_toNat_eq hop)
    case h_6 hop => exact .smenter (BitVec.eq_of_toNat_eq hop)
    case h_7 hop => exact .smexit (BitVec.eq_of_toNat_eq hop)
    case h_8 hop => exact .smwrite (BitVec.eq_of_toNat_eq hop)
    case h_9 hop => exact .smread (BitVec.eq_of_toNat_eq hop)
    case h_10 hop => exact .cfgwr (BitVec.eq_of_toNat_eq hop)
    case h_11 hop => exact .rdreg (BitVec.eq_of_toNat_eq hop)
  · intro h
    cases h <;>
    · rename_i hop
      simp only [decode, hop]
      rfl

/-- The decoder refuses opcodes 11 to 15 and no others (30_encoding.md R104). -/
theorem decode_eq_error_iff {w : Word} {e : DecodeError} :
    decode w = .error e ↔ e = .badOpcode ∧ 11 ≤ (field w 60 4).toNat := by
  unfold decode
  split
  case h_12 => grind
  all_goals simp_all

/-- Bits 63:60 as a number. -/
theorem opcode_toNat (w : Word) : (field w 60 4).toNat = w.toNat / 2 ^ 60 := by
  rw [field_toNat]
  omega

/-! ### Encoding -/

/-- Bits 63:60 of a command's word are its opcode (Table R103). -/
theorem field_encode_opcode (i : Instr) : field (encode i) 60 4 = opcodeOf i := by
  cases i with
  | nop z => exact Laws.Opcode.nop z
  | setgl p a sp d z f => exact Laws.Opcode.setgl p a sp d z f
  | setga p a z po ac => exact Laws.Opcode.setga p a z po ac
  | termgl p a z => exact Laws.Opcode.termgl p a z
  | termga p a z => exact Laws.Opcode.termga p a z
  | smenter p z => exact Laws.Opcode.smenter p z
  | smexit z => exact Laws.Opcode.smexit z
  | smwrite z cv v => exact Laws.Opcode.smwrite z cv v
  | smread z cv z2 => exact Laws.Opcode.smread z cv z2
  | cfgwr z r z2 v => exact Laws.Opcode.cfgwr z r z2 v
  | rdreg z r z2 z3 => exact Laws.Opcode.rdreg z r z2 z3

/-- Every field of a decoded command stands in its word: side by side they are the word. -/
theorem encode_of_readsAs {w : Word} {i : Instr} (h : ReadsAs w i) : encode i = w := by
  cases h <;>
  · rename_i hop
    simp (disch := rfl) only [encode, ← hop, protoFieldCode_protoOfCode, field_append_field]
    exact field_full w

/-- Reading back an encoded command: the opcode selects its arm, and each field is found at its place among the others. -/
theorem decode_encode (i : Instr) : decode (encode i) = .ok i := by
  unfold decode
  rw [field_encode_opcode]
  cases i <;>
    simp (disch := decide) only [opcodeOf, encode, field, BitVec.extractLsb'_append_eq_of_le,
      BitVec.extractLsb'_append_eq_of_add_le, BitVec.extractLsb'_eq_self, Nat.reduceSub, protoOfCode_protoFieldCode]
  all_goals rfl

/-- The bytes of a word in front of others are read back as that word (20_memory.md R79). -/
theorem decodeBytes_bytesOfWord {w : Word} {i : Instr} (h : decode w = .ok i) (rest : List (BitVec 8)) :
    decodeBytes (bytesOfWord w ++ rest) = .ok (i, rest) := by
  have hw : field w 56 8 ++ field w 48 8 ++ field w 40 8 ++ field w 32 8 ++ field w 24 8 ++ field w 16 8 ++ field w 8 8 ++
      field w 0 8 = w := by
    simp (disch := rfl) only [field_append_field]
    exact field_full w
  simp only [bytesOfWord, List.cons_append, List.nil_append, decodeBytes]
  rw [hw, h]

/-- Settles O1, from the round trip of the word and that of its bytes. -/
theorem decodeAfterEncode : Obligations.DecodeAfterEncode :=
  fun i => ⟨decode_encode i, decodeBytes_bytesOfWord (decode_encode i)⟩

/-- A word is the word of the command it decodes to, and of no other. -/
theorem decode_eq_ok_iff_encode_eq {w : Word} {i : Instr} : decode w = .ok i ↔ encode i = w :=
  ⟨fun h => encode_of_readsAs (decode_eq_ok_iff.1 h), fun h => h ▸ decode_encode i⟩

/-- Settles O2: the decoder answers a command or refuses, and it refuses opcodes 11 to 15 only. -/
theorem encodeAfterDecode : Obligations.EncodeAfterDecode := by
  refine ⟨fun w i h => ?_, fun w hw => ?_, fun w hw => ?_⟩
  · have henc := decode_eq_ok_iff_encode_eq.1 h
    exact ⟨henc, by rw [← field_encode_opcode, henc, opcode_toNat]⟩
  · cases hd : decode w with
    | ok i => exact ⟨i, rfl⟩
    | error e =>
      have hill := (decode_eq_error_iff.1 hd).2
      rw [opcode_toNat] at hill
      omega
  · exact decode_eq_error_iff.2 ⟨rfl, by rwa [opcode_toNat]⟩

/-! ### Zero fields -/

/-- The test of one zero field, as a mask of the word. -/
theorem field_beq_zero_iff (w : Word) {lo len : Nat} (h : lo + len ≤ 64) :
    (field w lo len == 0) = true ↔ w &&& fieldMask lo len = 0 := by
  rw [beq_iff_eq, and_fieldMask_eq_zero w h]

/-- Two tests of parts of a word are one test under the union of their masks. -/
theorem and_iff_masked {a b : Bool} {w m n : Word} (ha : a = true ↔ w &&& m = 0) (hb : b = true ↔ w &&& n = 0) :
    (a && b) = true ↔ w &&& (m ||| n) = 0 := by
  rw [Bool.and_eq_true, ha, hb, and_or_eq_zero]

/-- The mask of each format is the union of the masks of its zero fields (30_encoding.md R101). -/
theorem zeroFieldsZero_iff_of_readsAs {w : Word} {i : Instr} (h : ReadsAs w i) :
    i.zeroFieldsZero = true ↔ w &&& zeroMaskOf (field w 60 4).toNat = 0 := by
  cases h with
  | nop hop => rw [hop]; exact field_beq_zero_iff w (lo := 0) (by decide)
  | setgl hop => rw [hop]; exact field_beq_zero_iff w (lo := 32) (by decide)
  | setga hop => rw [hop]; exact field_beq_zero_iff w (lo := 2) (by decide)
  | termgl hop => rw [hop]; exact field_beq_zero_iff w (lo := 0) (by decide)
  | termga hop => rw [hop]; exact field_beq_zero_iff w (lo := 0) (by decide)
  | smenter hop => rw [hop]; exact field_beq_zero_iff w (lo := 0) (by decide)
  | smexit hop => rw [hop]; exact field_beq_zero_iff w (lo := 0) (by decide)
  | smwrite hop => rw [hop]; exact field_beq_zero_iff w (lo := 24) (by decide)
  | smread hop =>
    rw [hop]
    exact and_iff_masked (field_beq_zero_iff w (by decide)) (field_beq_zero_iff w (by decide))
  | cfgwr hop =>
    rw [hop]
    exact and_iff_masked (field_beq_zero_iff w (by decide)) (field_beq_zero_iff w (by decide))
  | rdreg hop =>
    rw [hop]
    exact and_iff_masked (and_iff_masked (field_beq_zero_iff w (by decide)) (field_beq_zero_iff w (by decide)))
      (field_beq_zero_iff w (by decide))

/-- Settles O3, by the decoder's cases. -/
theorem zeroFieldsAreTheMaskedBits : Obligations.ZeroFieldsAreTheMaskedBits := by
  intro w i h
  rw [zeroFieldsZero_iff_of_readsAs (decode_eq_ok_iff.1 h), opcode_toNat]

/-! ### Event words -/

/-- The OP bit as a number: 1 for a read only. -/
theorem eventBit_toNat (op : SmOp) : op.eventBit.toNat = if op = .read then 1 else 0 := by
  cases op <;> rfl

/-- Settles O5: an event word is laid out field by field, and each field counts in units of those below it. -/
theorem eventWordsHaveTheirFormats : Obligations.EventWordsHaveTheirFormats := by
  refine ⟨fun r h => ?_, fun p a c => ?_, fun p st op cv v => ?_, fun i v => ?_, fun c => ?_, fun r v => ?_, rfl, rfl,
    rfl⟩
  all_goals simp only [Event.word, toNat_append_eq_add, BitVec.toNat_ofBool, BitVec.toNat_ofNat, eventBit_toNat]
  all_goals omega

/-- Settles O4: each example word is the word of its command. -/
theorem sampleWordsDecode : Obligations.SampleWordsDecode :=
  ⟨decode_encode (.nop 0), decode_encode (.setgl (some .dcc) 3 128 1 0 0), decode_encode (.setga (some .dcc) 12 0 1 1),
    decode_encode (.termgl (some .dcc) 3 0), decode_encode (.termga (some .mm) 324 0),
    decode_encode (.smenter (some .dcc) 0), decode_encode (.smexit 0), decode_encode (.smwrite 0 29 6),
    decode_encode (.smread 0 29 0), decode_encode (.cfgwr 0 1 0 100000), decode_encode (.rdreg 0 2 0 0)⟩

end Sys2Proof.Machine

/-! ## The registry commands (40_registry_commands.md R131, R133 to R139) -/

namespace Sys2Proof.Machine

/-! ### Accepted and rejected, by the answer of the rule -/

theorem exec_of_ok {i : Instr} {s t : State} (h : commandRule params i s = .ok t) : exec i s = .next t := by
  rw [exec_eq, execWith, h, settle_ok]

theorem exec_of_error {i : Instr} {s : State} {r : Reason} (h : commandRule params i s = .error r) :
    exec i s = .next (reject params r (encode i) s) := by
  rw [exec_eq, execWith, h, settle_error]

/-- Settles O8: of NOP's checks only that of its zero field can fail. -/
theorem nopDoesNothing : Obligations.NopDoesNothing := by
  refine ⟨rfl, fun s => exec_of_ok ?_, fun z s hz => exec_of_error ?_⟩
  · have hpre : preCheck (.nop 0) s = .ok () := preCheck_eq_ok.2 ⟨.inr rfl, rfl⟩
    rw [commandRule, nopRule, hpre, bind_ok, pure_ok]
  · have hpre : preCheck (.nop z) s = .error .reservedNonzero :=
      preCheck_eq_error.2 (.inr ⟨.inr rfl, by simpa [zeroFieldsClear] using hz, rfl⟩)
    rw [commandRule, nopRule, hpre, bind_error]

/-! ### What the registry commands write -/

/-- The ranges of Table R83 are those the machine checks. -/
theorem addrValid_of_inRange {p : Proto} {k : Kind} {a : BitVec 14} (h : inRange params p k a.toNat) :
    addrValid params ⟨p, k, a⟩ = true := by
  cases p <;> cases k
  case mfx.ga => exact h.elim
  all_goals exact decide_eq_true h

theorem onlySlotChanged_writeSlot (s : State) (key : SlotKey) (sl : Slot) :
    OnlySlotChanged s (s.writeSlot key sl) key := by
  refine ⟨rfl, fun k hk => ?_, fun hwf => Arena.wf_write _ _ _ hwf⟩
  rw [State.slot_writeSlot, if_neg hk]

/-- The effect of an accepted SETGL or SETGA, whatever the payload (40_registry_commands.md R133 to R136). -/
theorem setSlot_effect (key : SlotKey) (pl : Payload) (s : State) :
    OnlySlotChanged s (setSlot key pl s) key ∧ ((setSlot key pl s).slot key).valid = true ∧
      ((setSlot key pl s).slot key).dirty = true ∧ ((setSlot key pl s).slot key).payload = pl ∧
      ((s.slot key).valid = true → ((setSlot key pl s).slot key).eligibleAt = (s.slot key).eligibleAt) ∧
      ((s.slot key).valid = false →
        ((setSlot key pl s).slot key).eligibleAt = max (s.slot key).eligibleAt s.now) := by
  refine ⟨onlySlotChanged_writeSlot s key _, ?_⟩
  rw [setSlot_slot, if_pos rfl]
  exact ⟨rfl, rfl, rfl, fun hv => if_pos hv, fun hv => if_neg (Bool.eq_false_iff.1 hv)⟩

/-- The effect of an accepted TERMGL or TERMGA (40_registry_commands.md R137, R139). -/
theorem clearSlot_effect (key : SlotKey) (s : State) :
    OnlySlotChanged s (clearSlot key s) key ∧
      (clearSlot key s).slot key = ⟨false, false, (s.slot key).eligibleAt, Payload.zero key.kind⟩ := by
  refine ⟨onlySlotChanged_writeSlot s key _, ?_⟩
  rw [clearSlot_slot, if_pos rfl]
  rfl

/-- Checks 2 and 3 of a command with its zero fields zero, outside HALTED. -/
theorem preCheck_of_not_halted {i : Instr} {s : State} (hm : s.mode ≠ .halted) (hz : zeroFieldsClear i = true) :
    preCheck i s = .ok () := preCheck_eq_ok.2 ⟨.inl hm, hz⟩

/-- Settles O9: every check passes, and the rule writes the one slot. -/
theorem setCommandsWriteOneSlot : Obligations.SetCommandsWriteOneSlot := by
  refine ⟨fun s p a sp d f hm ha hsp hf => ⟨_, exec_of_ok ?_, setSlot_effect ⟨p, .gl, a⟩ (.gl sp d f) s⟩,
    fun s p a po ac hm ha => ⟨_, exec_of_ok ?_, setSlot_effect ⟨p, .ga, a⟩ (.ga po ac) s⟩⟩
  · rw [commandRule, setglRule, preCheck_of_not_halted hm rfl, bind_ok,
      keyOperand_of_valid (addrValid_of_inRange ha), bind_ok, decide_eq_true hsp, require_true, bind_ok,
      funcsWithin, decide_eq_true hf, require_true, bind_ok, pure_ok]
  · rw [commandRule, setgaRule, preCheck_of_not_halted hm rfl, bind_ok,
      keyOperand_of_valid (addrValid_of_inRange ha), bind_ok, pure_ok]

/-- TERMGL and TERMGA at a valid address come down to the check of their slot. -/
theorem commandRule_term {P : Params} {i : Instr} {s : State} {p : Proto} {k : Kind} {a : BitVec 14}
    (hi : i = .termgl (some p) a 0 ∧ k = .gl ∨ i = .termga (some p) a 0 ∧ k = .ga) (hm : s.mode ≠ .halted)
    (ha : addrValid P ⟨p, k, a⟩ = true) :
    commandRule P i s = if (s.slot ⟨p, k, a⟩).valid then .ok (clearSlot ⟨p, k, a⟩ s) else .error .noSlot := by
  have hkey := keyOperand_of_valid ha
  obtain ⟨rfl, rfl⟩ | ⟨rfl, rfl⟩ := hi
  · rw [commandRule, termglRule, preCheck_of_not_halted hm rfl, bind_ok, hkey, bind_ok]
    cases (s.slot ⟨p, .gl, a⟩).valid <;> rfl
  · rw [commandRule, termgaRule, preCheck_of_not_halted hm rfl, bind_ok, hkey, bind_ok]
    cases (s.slot ⟨p, .ga, a⟩).valid <;> rfl

/-- Settles O10: the slot's `valid` bit decides between the two answers of the rule. -/
theorem termCommandsRemoveOneSlot : Obligations.TermCommandsRemoveOneSlot := by
  refine ⟨fun s p a hm ha hv => ⟨_, exec_of_ok ?_, clearSlot_effect ⟨p, .gl, a⟩ s⟩,
    fun s p a hm ha hv => ⟨_, exec_of_ok ?_, clearSlot_effect ⟨p, .ga, a⟩ s⟩,
    fun s p a hm ha hv => exec_of_error ?_, fun s p a hm ha hv => exec_of_error ?_⟩
  · rw [commandRule_term (.inl ⟨rfl, rfl⟩) hm (addrValid_of_inRange ha), if_pos hv]
  · rw [commandRule_term (.inr ⟨rfl, rfl⟩) hm (addrValid_of_inRange ha), if_pos hv]
  · rw [commandRule_term (.inl ⟨rfl, rfl⟩) hm (addrValid_of_inRange ha), if_neg (Bool.eq_false_iff.1 hv)]
  · rw [commandRule_term (.inr ⟨rfl, rfl⟩) hm (addrValid_of_inRange ha), if_neg (Bool.eq_false_iff.1 hv)]

end Sys2Proof.Machine

/-! ## The checks of a command word, over its bits (40_registry_commands.md R132, 60_exceptions.md R312) -/

namespace Sys2Proof.Machine

/-! ### Lists of checks, and the reason a rule answers -/

@[simp] theorem firstFailing_nil : firstFailing [] = none := rfl

@[simp] theorem firstFailing_cons (fails : Bool) (r : Reason) (rest : List (Bool × Reason)) :
    firstFailing ((fails, r) :: rest) = if fails then some r else firstFailing rest := rfl

/-- The reason of a rejection; none for an accepted command. -/
def rejection {α : Type} : Except Reason α → Option Reason
  | .ok _ => none
  | .error r => some r

@[simp] theorem rejection_ok {α : Type} (a : α) : rejection (.ok a) = none := rfl

@[simp] theorem rejection_error {α : Type} (r : Reason) : rejection (.error r : Except Reason α) = some r := rfl

theorem rejection_eq_some_iff {α : Type} {x : Except Reason α} {r : Reason} :
    rejection x = some r ↔ x = .error r := by
  cases x <;> simp

theorem rejection_eq_none_iff {α : Type} {x : Except Reason α} : rejection x = none ↔ ∃ a, x = .ok a := by
  cases x <;> simp

/-- One check of a rule reads as one line of a list of checks. -/
@[simp] theorem rejection_require_bind {α : Type} (pass : Bool) (r : Reason) (f : Unit → Except Reason α) :
    rejection (require pass r >>= f) = if !pass then some r else rejection (f ()) := by
  cases pass <;> rfl

/-! ### The operands of a word as numbers -/

theorem opcodeNumber_of_field {w : Word} {opc : BitVec 4} (h : field w 60 4 = opc) : w.toNat / 2 ^ 60 = opc.toNat := by
  rw [← h, opcode_toNat]

/-- The PROTO field of a word, by the protocol it names. -/
theorem protoNumber_eq (w : Word) :
    w.toNat / 2 ^ 58 % 4 = (protoFieldCode (protoOfCode (field w 58 2))).toNat := by
  rw [protoFieldCode_protoOfCode, field_toNat]
  rfl

@[simp] theorem protoFieldCode_some (p : Proto) : protoFieldCode (some p) = protoCode p := rfl

@[simp] theorem protoFieldCode_none_toNat : (protoFieldCode none).toNat = 3 := rfl

@[simp] theorem protoCode_ne_reserved (p : Proto) : (protoCode p).toNat ≠ 3 := by
  cases p <;> decide

@[simp] theorem byCode_protoCode (f : Proto → Nat) (p : Proto) : byCode f (protoCode p).toNat = f p := by
  cases p <;> rfl

/-- The checks of PROTO and ADDR for one of the three protocols: mfx and GA is the one pair with no address at all. -/
theorem rejection_keyOperand_some_bind {α : Type} (P : Params) (p : Proto) (k : Kind) (a : BitVec 14)
    (f : SlotKey → Except Reason α) :
    rejection (keyOperand P (some p) k a >>= f) =
      if kindCode k = 1 ∧ (protoCode p).toNat = 2 then some .badProto
      else if P.addrMin ≤ a.toNat ∧ a.toNat ≤ topAddress P (protoCode p).toNat (kindCode k) then
        rejection (f ⟨p, k, a⟩)
      else some .badAddr := by
  have hrange : ∀ hi, addrMax P p k = some hi →
      rejection (keyOperand P (some p) k a >>= f) =
        if P.addrMin ≤ a.toNat ∧ a.toNat ≤ hi then rejection (f ⟨p, k, a⟩) else some .badAddr := by
    intro hi hmax
    by_cases ha : P.addrMin ≤ a.toNat ∧ a.toNat ≤ hi <;> simp [keyOperand, hmax, ha]
  cases p <;> cases k
  case mfx.ga => rfl
  all_goals exact hrange _ rfl

/-- The register indexes that RDREG does not know (10_state.md R39). -/
theorem registerValue_eq_none_iff {s : State} {reg : BitVec 4} : registerValue s reg = none ↔ 5 < reg.toNat := by
  unfold registerValue
  split
  case h_7 => exact iff_of_true rfl (by grind)
  all_goals simp; omega

/-- The REG field of a word. -/
theorem regNumber_eq (w : Word) : w.toNat / 2 ^ 40 % 16 = (field w 40 4).toNat := (field_toNat w 40 4).symm

/-- The reserved bits of CTRL stand at the same places in the word (44_config_status.md R271). -/
theorem value_and_ctrlReservedMask (w : Word) :
    field w 0 32 &&& ctrlReservedMask = 0#32 ↔ w &&& 0xFFFF00C0#64 = 0#64 := by
  have hword : w &&& ctrlReservedMask.setWidth 64 = (field w 0 32 &&& ctrlReservedMask).setWidth 64 := by
    ext i hi
    simp only [field, BitVec.getElem_and, BitVec.getElem_setWidth, BitVec.getLsbD_and, BitVec.getLsbD_extractLsb']
    by_cases h32 : i < 32
    · simp [h32, BitVec.getLsbD_eq_getElem hi]
    · simp [h32, BitVec.getLsbD_of_ge ctrlReservedMask i (not_lt.1 h32)]
  have hnat := congrArg BitVec.toNat hword
  rw [BitVec.toNat_setWidth_of_le (by decide)] at hnat
  rw [← BitVec.toNat_inj, ← BitVec.toNat_inj, ← hnat]
  rfl

/-! ### The list of checks against the rules -/

theorem opcode_lt_of_readsAs {w : Word} {i : Instr} (h : ReadsAs w i) : w.toNat / 2 ^ 60 < 11 := by
  cases h <;>
  · rename_i hop
    rw [opcodeNumber_of_field hop]
    decide

theorem exemptFromHalt_of_readsAs {w : Word} {i : Instr} (h : ReadsAs w i) :
    exemptFromHalt i = decide (w.toNat / 2 ^ 60 = 0 ∨ w.toNat / 2 ^ 60 = 10) := by
  cases h <;>
  · rename_i hop
    rw [opcodeNumber_of_field hop]
    rfl

theorem zeroFieldsClear_of_readsAs {w : Word} {i : Instr} (h : ReadsAs w i) :
    zeroFieldsClear i = decide (w &&& zeroMaskOf (w.toNat / 2 ^ 60) = 0) := by
  rw [Bool.eq_iff_iff, decide_eq_true_iff, zeroFieldsClear_eq, zeroFieldsZero_iff_of_readsAs h, opcode_toNat]

/-- The checks of R132 from the fourth on: those of the operands, then the commands' own. -/
def operandChecks (P : Params) (w : Word) (s : State) : List (Bool × Reason) := (wordChecks P w s).drop 3

/-- The first three checks of a command's word are those of `preCheck`, the opcode being legal. -/
theorem firstFailing_wordChecks {P : Params} {w : Word} {i : Instr} (h : ReadsAs w i) (s : State) {α : Type}
    {f : Unit → Except Reason α} (hrest : firstFailing (operandChecks P w s) = rejection (f ())) :
    firstFailing (wordChecks P w s) = rejection (preCheck i s >>= f) := by
  have hlist : wordChecks P w s =
      (decide (11 ≤ w.toNat / 2 ^ 60), .badOpcode) ::
      (decide (s.mode = .halted ∧ w.toNat / 2 ^ 60 ≠ 0 ∧ w.toNat / 2 ^ 60 ≠ 10), .halted) ::
      (decide (w &&& zeroMaskOf (w.toNat / 2 ^ 60) ≠ 0), .reservedNonzero) :: operandChecks P w s := rfl
  have hop : ¬11 ≤ w.toNat / 2 ^ 60 := Nat.not_le.2 (opcode_lt_of_readsAs h)
  rw [hlist, preCheck, exemptFromHalt_of_readsAs h, zeroFieldsClear_of_readsAs h]
  generalize w.toNat / 2 ^ 60 = opc at *
  by_cases hmode : s.mode = .halted
  all_goals by_cases hzero : w &&& zeroMaskOf opc = 0
  all_goals simp [hop, hrest, hmode, hzero]

/-- The next two checks of a slot command's word are those of `keyOperand`. -/
theorem firstFailing_operandChecks {P : Params} {w : Word} {s : State} {k : Kind} {α : Type}
    {f : SlotKey → Except Reason α} (hslot : 1 ≤ w.toNat / 2 ^ 60 ∧ w.toNat / 2 ^ 60 ≤ 4)
    (hkind : kindCode k = if w.toNat / 2 ^ 60 = 2 ∨ w.toNat / 2 ^ 60 = 4 then 1 else 0)
    (hrest : ∀ p, protoOfCode (field w 58 2) = some p →
      firstFailing ((operandChecks P w s).drop 2) = rejection (f ⟨p, k, field w 44 14⟩)) :
    firstFailing (operandChecks P w s) =
      rejection (keyOperand P (protoOfCode (field w 58 2)) k (field w 44 14) >>= f) := by
  have hlist : operandChecks P w s =
      (decide ((1 ≤ w.toNat / 2 ^ 60 ∧ w.toNat / 2 ^ 60 ≤ 4 ∨ w.toNat / 2 ^ 60 = 5) ∧ w.toNat / 2 ^ 58 % 4 = 3 ∨
        (if w.toNat / 2 ^ 60 = 2 ∨ w.toNat / 2 ^ 60 = 4 then 1 else 0) = 1 ∧ w.toNat / 2 ^ 58 % 4 = 2), .badProto) ::
      (decide ((1 ≤ w.toNat / 2 ^ 60 ∧ w.toNat / 2 ^ 60 ≤ 4) ∧
        ¬(P.addrMin ≤ w.toNat / 2 ^ 44 % 2 ^ 14 ∧ w.toNat / 2 ^ 44 % 2 ^ 14 ≤ topAddress P (w.toNat / 2 ^ 58 % 4)
          (if w.toNat / 2 ^ 60 = 2 ∨ w.toNat / 2 ^ 60 = 4 then 1 else 0))), .badAddr) ::
      (operandChecks P w s).drop 2 := rfl
  rw [hlist, ← hkind, protoNumber_eq, ← field_toNat]
  generalize w.toNat / 2 ^ 60 = opc at *
  cases hp : protoOfCode (field w 58 2) with
  | none => simp [hslot, keyOperand]
  | some p =>
    rw [firstFailing_cons, firstFailing_cons, hrest p hp, rejection_keyOperand_some_bind]
    by_cases ha : P.addrMin ≤ (field w 44 14).toNat ∧
        (field w 44 14).toNat ≤ topAddress P (protoCode p).toNat (kindCode k)
    all_goals simp [hslot, ha]

/-- The list of checks and the command's rule find the same reason: of the operand checks, the opcode leaves those of the
rule, in the rule's order. -/
theorem firstFailing_eq_rejection {P : Params} {w : Word} {i : Instr} (h : ReadsAs w i) (s : State) :
    firstFailing (wordChecks P w s) = rejection (commandRule P i s) := by
  have hread := h
  cases h with
  | nop hop =>
    have hopc : w.toNat / 2 ^ 60 = 0 := opcodeNumber_of_field hop
    refine firstFailing_wordChecks hread s ?_
    simp [operandChecks, wordChecks, hopc, -Nat.reducePow]
  | setgl hop =>
    have hopc : w.toNat / 2 ^ 60 = 1 := opcodeNumber_of_field hop
    refine firstFailing_wordChecks hread s (firstFailing_operandChecks (by omega) (by rw [hopc]; rfl) fun p hp => ?_)
    simp [operandChecks, wordChecks, hopc, protoNumber_eq, hp, field_toNat, funcsWithin, -Nat.reducePow]
  | setga hop =>
    have hopc : w.toNat / 2 ^ 60 = 2 := opcodeNumber_of_field hop
    refine firstFailing_wordChecks hread s (firstFailing_operandChecks (by omega) (by rw [hopc]; rfl) fun p hp => ?_)
    simp [operandChecks, wordChecks, hopc, -Nat.reducePow]
  | termgl hop =>
    have hopc : w.toNat / 2 ^ 60 = 3 := opcodeNumber_of_field hop
    refine firstFailing_wordChecks hread s (firstFailing_operandChecks (by omega) (by rw [hopc]; rfl) fun p hp => ?_)
    simp [operandChecks, wordChecks, hopc, addressedSlotValid, hp, -Nat.reducePow]
  | termga hop =>
    have hopc : w.toNat / 2 ^ 60 = 4 := opcodeNumber_of_field hop
    refine firstFailing_wordChecks hread s (firstFailing_operandChecks (by omega) (by rw [hopc]; rfl) fun p hp => ?_)
    simp [operandChecks, wordChecks, hopc, addressedSlotValid, hp, -Nat.reducePow]
  | smenter hop =>
    have hopc : w.toNat / 2 ^ 60 = 5 := opcodeNumber_of_field hop
    refine firstFailing_wordChecks hread s ?_
    simp only [operandChecks, wordChecks, hopc, protoNumber_eq, -Nat.reducePow]
    cases protoOfCode (field w 58 2) with
    | none => simp
    | some p => simp
  | smexit hop =>
    have hopc : w.toNat / 2 ^ 60 = 6 := opcodeNumber_of_field hop
    refine firstFailing_wordChecks hread s ?_
    simp [operandChecks, wordChecks, hopc, -Nat.reducePow]
  | smwrite hop =>
    have hopc : w.toNat / 2 ^ 60 = 7 := opcodeNumber_of_field hop
    refine firstFailing_wordChecks hread s ?_
    simp [operandChecks, wordChecks, hopc, sessionCheck, field_toNat, -Nat.reducePow]
  | smread hop =>
    have hopc : w.toNat / 2 ^ 60 = 8 := opcodeNumber_of_field hop
    refine firstFailing_wordChecks hread s ?_
    simp [operandChecks, wordChecks, hopc, sessionCheck, field_toNat, -Nat.reducePow]
  | cfgwr hop =>
    have hopc : w.toNat / 2 ^ 60 = 9 := opcodeNumber_of_field hop
    refine firstFailing_wordChecks hread s ?_
    have hreg : field w 40 4 = 0#4 ↔ (field w 40 4).toNat = 0 := BitVec.toNat_inj.symm
    simp [operandChecks, wordChecks, hopc, regNumber_eq, hreg, value_and_ctrlReservedMask, -Nat.reducePow]
  | rdreg hop =>
    have hopc : w.toNat / 2 ^ 60 = 10 := opcodeNumber_of_field hop
    refine firstFailing_wordChecks hread s ?_
    cases hv : registerValue s (field w 40 4) with
    | none =>
      have hlt := registerValue_eq_none_iff.1 hv
      simp [operandChecks, wordChecks, hopc, regNumber_eq, hlt, -Nat.reducePow]
    | some v =>
      have hle : ¬5 < (field w 40 4).toNat := by
        rw [← registerValue_eq_none_iff (s := s), hv]
        nofun
      simp [operandChecks, wordChecks, hopc, regNumber_eq, hle, -Nat.reducePow]

/-- Settles O17: the list and the rule find the same first reason, and the word of the rejected command is the word. -/
theorem rejectionIsTheFirstFailingCheck : Obligations.RejectionIsTheFirstFailingCheck := by
  intro s w
  have hstep : step (s.offering (.host w)) = .next (hostStep params w { s with out := [] }) := step_of_host rfl
  have hchecks : wordChecks params w s = wordChecks params w { s with out := [] } := rfl
  rw [hstep, hchecks]
  cases hd : decode w with
  | error e =>
    have hopc := (decode_eq_error_iff.1 hd).2
    rw [opcode_toNat] at hopc
    have hfirst : firstFailing (wordChecks params w { s with out := [] }) = some .badOpcode :=
      if_pos (decide_eq_true hopc)
    refine ⟨fun r hr => ?_, fun hnone => ?_⟩
    · rw [hfirst] at hr
      cases hr
      rw [hostStep, hd, rejectUndecoded]
    · rw [hfirst] at hnone
      cases hnone
  | ok i =>
    rw [firstFailing_eq_rejection (decode_eq_ok_iff.1 hd), hostStep_of_decode_ok params hd, execWith,
      decode_eq_ok_iff_encode_eq.1 hd]
    refine ⟨fun r hr => ?_, fun hnone => ?_⟩
    · rw [rejection_eq_some_iff.1 hr, settle_error]
    · obtain ⟨t, ht⟩ := rejection_eq_none_iff.1 hnone
      exact ⟨i, t, rfl, ht, by rw [ht, settle_ok]⟩

end Sys2Proof.Machine

/-! ## The scheduler's choice (41_scheduler.md R152, R153, R156) -/

namespace Sys2Proof.Machine

/-! ### Eligibility -/

theorem eligible_iff {s : State} {t : Nat} {key : SlotKey} : eligible s t key = true ↔ EligibleAt s t key := by
  simp [eligible, EligibleAt, and_assoc]

/-- A key the arena does not list reads as a blank slot, so a valid slot's key is listed (10_state.md R21). -/
theorem Arena.mem_keys_of_valid {m : Arena} {key : SlotKey} (h : (m.read key).valid = true) : key ∈ m.keys := by
  induction m with
  | nil => exact absurd h Bool.false_ne_true
  | cons e rest ih =>
    obtain ⟨k, sl⟩ := e
    by_cases hk : k = key
    · exact List.mem_cons.2 (.inl hk.symm)
    · rw [Arena.read_cons_of_ne _ _ hk] at h
      exact List.mem_cons_of_mem _ (ih h)

theorem mem_cand_iff {s : State} {t : Nat} {key : SlotKey} : key ∈ cand s t ↔ EligibleAt s t key := by
  rw [cand, List.mem_filter, eligible_iff]
  exact ⟨And.right, fun h => ⟨Arena.mem_keys_of_valid h.1, h⟩⟩

/-- Settles O26: an eligible slot is valid, so the arena lists its key. -/
theorem candidatesAreTheEligibleSlots : Obligations.CandidatesAreTheEligibleSlots := fun _ _ _ => mem_cand_iff

/-! ### Priority -/

/-- The model's lexicographic order is the library's. -/
theorem lexLt_iff_lt {a b : List Nat} : lexLt a b = true ↔ a < b := by
  induction a generalizing b with
  | nil => cases b <;> simp [lexLt]
  | cons x xs ih => cases b <;> simp [lexLt, ih, List.cons_lt_cons_iff]

theorem one_sub_toNat_lt_iff (a b : Bool) : 1 - a.toNat < 1 - b.toNat ↔ a = true ∧ b = false := by
  cases a <;> cases b <;> decide

theorem one_sub_toNat_eq_iff (a b : Bool) : 1 - a.toNat = 1 - b.toNat ↔ a = b := by
  cases a <;> cases b <;> decide

theorem protoCode_toNat_eq_iff {p q : Proto} : (protoCode p).toNat = (protoCode q).toNat ↔ p = q :=
  ⟨protoCode_injective, fun h => h ▸ rfl⟩

theorem kindCode_eq_iff {k j : Kind} : kindCode k = kindCode j ↔ k = j := ⟨kindCode_injective, fun h => h ▸ rfl⟩

/-- `Precedes` is the order of the sort keys. -/
theorem sortKey_lt_iff_precedes {s : State} {k j : SlotKey} : sortKey s k < sortKey s j ↔ Precedes s k j := by
  simp only [sortKey, List.cons_lt_cons_iff, one_sub_toNat_lt_iff, one_sub_toNat_eq_iff, protoCode_toNat_eq_iff,
    kindCode_eq_iff, List.not_lt_nil, and_false, or_false, Precedes]

/-- Keys are unique, so sort keys are (41_scheduler.md R153). -/
theorem sortKey_injective {s : State} {k j : SlotKey} (h : sortKey s k = sortKey s j) : k = j := by
  obtain ⟨p, x, a⟩ := k
  obtain ⟨q, y, b⟩ := j
  simp only [sortKey, List.cons.injEq, protoCode_toNat_eq_iff, kindCode_eq_iff] at h
  obtain ⟨_, _, hp, hk, ha, _⟩ := h
  rw [hp, hk, BitVec.eq_of_toNat_eq ha]

theorem precedes_of_sortKey_le {s : State} {k j : SlotKey} (h : sortKey s k ≤ sortKey s j) (hne : j ≠ k) :
    Precedes s k j :=
  sortKey_lt_iff_precedes.1 (lt_of_le_of_ne h fun he => hne (sortKey_injective he).symm)

theorem best_eq_none_iff {s : State} {C : List SlotKey} : best s C = none ↔ C = [] := by
  cases C with
  | nil => simp [best]
  | cons k ks =>
    cases hb : best s ks with
    | none => simp [best, hb]
    | some b => by_cases hlt : lexLt (sortKey s b) (sortKey s k) = true <;> simp [best, hb, hlt]

/-- `best(C)` is a member of C whose sort key none other is below. -/
theorem best_spec {s : State} {C : List SlotKey} {k : SlotKey} (h : best s C = some k) :
    k ∈ C ∧ ∀ j ∈ C, sortKey s k ≤ sortKey s j := by
  induction C generalizing k with
  | nil => cases h
  | cons c cs ih =>
    cases hb : best s cs with
    | none =>
      simp only [best, hb, Option.some.injEq] at h
      subst h
      rw [best_eq_none_iff.1 hb]
      simp
    | some b =>
      obtain ⟨hmem, hle⟩ := ih hb
      simp only [best, hb, lexLt_iff_lt] at h
      by_cases hlt : sortKey s b < sortKey s c
      · rw [if_pos hlt, Option.some.injEq] at h
        subst h
        exact ⟨List.mem_cons_of_mem _ hmem, List.forall_mem_cons.2 ⟨hlt.le, hle⟩⟩
      · rw [if_neg hlt, Option.some.injEq] at h
        subst h
        exact ⟨List.mem_cons_self, List.forall_mem_cons.2 ⟨le_rfl, fun j hj => (not_lt.1 hlt).trans (hle j hj)⟩⟩

theorem precedes_of_best {s : State} {C : List SlotKey} {k j : SlotKey} (h : best s C = some k) (hj : j ∈ C)
    (hne : j ≠ k) : Precedes s k j :=
  precedes_of_sortKey_le ((best_spec h).2 j hj) hne

/-- A member that precedes every other member is `best(C)`. -/
theorem best_eq_some_of_precedes {s : State} {C : List SlotKey} {k : SlotKey} (hk : k ∈ C)
    (h : ∀ j ∈ C, j ≠ k → Precedes s k j) : best s C = some k := by
  cases hb : best s C with
  | none => rw [best_eq_none_iff.1 hb] at hk; cases hk
  | some b =>
    by_contra hne
    have hbk : b ≠ k := fun he => hne (he ▸ rfl)
    have hlt := sortKey_lt_iff_precedes.2 (h b (best_spec hb).1 hbk)
    exact not_le.2 hlt ((best_spec hb).2 k hk)

/-- Settles O27, by induction on C: the sort keys are compared in the library's linear order on lists. -/
theorem bestHasTheLeastSortKey : Obligations.BestHasTheLeastSortKey :=
  fun _ _ => ⟨fun hne => Option.ne_none_iff_exists'.1 (mt best_eq_none_iff.1 hne),
    fun _ h => ⟨(best_spec h).1, fun _ hj hne => precedes_of_best h hj hne⟩⟩

/-! ### The list of steps -/

theorem psbRuleAt_of_infl {P : Params} {s : State} (h : s.infl ≠ none) (t : Nat) : psbRuleAt P s t = none := by
  rw [psbRuleAt, if_pos ((busy_iff s).2 h)]

theorem psbRuleAt_halted {P : Params} {s : State} (h : s.mode = .halted) (t : Nat) : psbRuleAt P s t = none := by
  simp [psbRuleAt, h]

theorem psbRuleAt_switchIn {P : Params} {s : State} (hi : s.infl = none) (hm : s.mode = .normal) (ht : s.target = true)
    (t : Nat) : psbRuleAt P s t = some .switchIn := by
  simp [psbRuleAt, State.busy, hi, hm, ht]

theorem psbRuleAt_switchOut {P : Params} {s : State} (hi : s.infl = none) (hm : s.mode = .service)
    (ht : s.target = false) (t : Nat) : psbRuleAt P s t = some .switchOut := by
  simp [psbRuleAt, State.busy, hi, hm, ht]

/-- At an output opportunity in NORMAL with no mode switch pending: the S88 grant, else SCHED_SELECT. -/
theorem psbRuleAt_normal {P : Params} {s : State} (hi : s.infl = none) (hm : s.mode = .normal) (ht : s.target = false)
    (t : Nat) : psbRuleAt P s t =
      if s88Due P s t && s88Allowed s then some .s88Start else (best s (cand s t)).map .schedSelect := by
  simp [psbRuleAt, State.busy, hi, hm, ht]

/-- At an output opportunity in SERVICE with no mode switch pending: the S88 grant, else the sequencer's step. -/
theorem psbRuleAt_service {P : Params} {s : State} (hi : s.infl = none) (hm : s.mode = .service) (ht : s.target = true)
    (t : Nat) : psbRuleAt P s t = if s88Due P s t && s88Allowed s then some .s88Start else sequencerRule s t := by
  simp [psbRuleAt, State.busy, hi, hm, ht]

/-- Outside HALTED with no mode switch pending, MODE and TARGET agree. -/
theorem mode_target_of_not_switchPending {s : State} (hm : s.mode ≠ .halted) (hsw : ¬switchPending s) :
    (s.mode = .normal ∧ s.target = false) ∨ (s.mode = .service ∧ s.target = true) := by
  cases hmode : s.mode with
  | normal => exact .inl ⟨rfl, Bool.eq_false_iff.2 fun ht => hsw (.inl ⟨hmode, ht⟩)⟩
  | service => exact .inr ⟨rfl, Bool.eq_true_of_not_eq_false fun ht => hsw (.inr ⟨hmode, ht⟩)⟩
  | halted => exact absurd hmode hm

theorem psbRuleAt_s88Start {P : Params} {s : State} {t : Nat} (hi : s.infl = none) (hm : s.mode ≠ .halted)
    (hsw : ¬switchPending s) (hdue : s88Due P s t = true) (hst : s.sm.state ≠ .sample) :
    psbRuleAt P s t = some .s88Start := by
  obtain ⟨hmode, ht⟩ | ⟨hmode, ht⟩ := mode_target_of_not_switchPending hm hsw
  · rw [psbRuleAt_normal hi hmode ht, if_pos (by simp [hdue, s88Allowed, hmode, ht, hst])]
  · rw [psbRuleAt_service hi hmode ht, if_pos (by simp [hdue, s88Allowed, hmode, ht, hst])]

theorem psbRuleAt_sequencer {P : Params} {s : State} {t : Nat} (hi : s.infl = none) (hm : s.mode = .service)
    (ht : s.target = true) (h : s88Due P s t = false ∨ s.sm.state = .sample) :
    psbRuleAt P s t = sequencerRule s t := by
  have hgrant : (s88Due P s t && s88Allowed s) = false := by
    obtain hdue | hst := h
    · rw [hdue, Bool.false_and]
    · simp [s88Allowed, hm, hst]
  rw [psbRuleAt_service hi hm ht, hgrant, if_neg Bool.false_ne_true]

theorem psbRuleAt_schedule {P : Params} {s : State} {t : Nat} (hi : s.infl = none) (hm : s.mode = .normal)
    (ht : s.target = false) (hdue : s88Due P s t = false) :
    psbRuleAt P s t = (best s (cand s t)).map .schedSelect := by
  rw [psbRuleAt_normal hi hm ht, hdue, Bool.false_and, if_neg Bool.false_ne_true]

/-- Settles O28: one equation for each clause of the list. -/
theorem psbTakesTheFirstEnabledStep : Obligations.PsbTakesTheFirstEnabledStep := by
  refine ⟨fun s t h => ?_, fun s t hi hm ht => psbRuleAt_switchIn hi hm ht t,
    fun s t hi hm ht => psbRuleAt_switchOut hi hm ht t, fun s t => psbRuleAt_s88Start, fun s t => psbRuleAt_schedule,
    fun s t hi hm ht h => psbRuleAt_sequencer hi hm ht h⟩
  obtain hi | hm := h
  · exact psbRuleAt_of_infl hi t
  · exact psbRuleAt_halted hm t

end Sys2Proof.Machine

/-! ## SCHED_SELECT (41_scheduler.md R157) -/

namespace Sys2Proof.Machine

/-! ### The step of an agent that is offered -/

/-- The step in which an agent is offered its turn. -/
theorem step_offering (s : State) (a : AgentStep) :
    step (s.offering a) = .next (agentStep params a { s with out := [] }) := step_eq _

/-- The labels of the step before do not bear on the choice of the PSB's step. -/
theorem psbRule_out_nil (P : Params) (s : State) : psbRule P { s with out := [] } = psbRule P s :=
  psbRuleAt_offer P s s.now s.agenda s.drawn []

theorem psbRule_takeOffer (P : Params) (s : State) : psbRule P (takeOffer s) = psbRule P s := by
  obtain ⟨ag, n, h⟩ := takeOffer_eq s
  rw [h]
  exact psbRuleAt_offer P s s.now ag n []

/-! ### When it is taken, and what it does -/

/-- SCHED_SELECT is the PSB's step only for the eligible slot that precedes all others, in NORMAL with no switch pending. -/
theorem schedSelect_conditions {P : Params} {s : State} {t : Nat} {key : SlotKey}
    (h : psbRuleAt P s t = some (.schedSelect key)) :
    EligibleAt s t key ∧ s.mode = .normal ∧ s.target = false ∧ ∀ j, EligibleAt s t j → j ≠ key → Precedes s key j := by
  obtain ⟨_, ⟨_, _, hr⟩ | ⟨_, _, hr⟩ | ⟨_, _, hr⟩ | ⟨hm, ht, _, k, hk, hr⟩ | ⟨_, _, _, hseq⟩⟩ := psbRuleAt_cases h
  · cases hr
  · cases hr
  · cases hr
  · cases hr
    exact ⟨mem_cand_iff.1 (best_spec hk).1, hm, ht, fun j hj hne => precedes_of_best hk (mem_cand_iff.2 hj) hne⟩
  · obtain ⟨_, hr⟩ | ⟨_, hr⟩ | ⟨_, _, hr⟩ | ⟨_, hr⟩ | ⟨_, hr⟩ | ⟨_, hr⟩ := sequencerRule_cases hseq
    all_goals cases hr

/-- The eligible slot that precedes all others is the one SCHED_SELECT takes. -/
theorem psbRuleAt_schedSelect {P : Params} {s : State} {t : Nat} {key : SlotKey} (hm : s.mode = .normal)
    (ht : s.target = false) (hi : s.infl = none) (hdue : s88Due P s t = false) (he : EligibleAt s t key)
    (hfirst : ∀ j, EligibleAt s t j → j ≠ key → Precedes s key j) :
    psbRuleAt P s t = some (.schedSelect key) := by
  have hbest : best s (cand s t) = some key :=
    best_eq_some_of_precedes (mem_cand_iff.2 he) fun j hj => hfirst j (mem_cand_iff.1 hj)
  rw [psbRuleAt_schedule hi hm ht hdue, hbest, Option.map_some]

/-- The state SCHED_SELECT leaves, with the packet of the multiplexer (42_encoder_mux.md R200, R202). -/
theorem schedSelect_eq (P : Params) (key : SlotKey) (s : State) :
    schedSelect P key s = { s with
      arena := s.arena.write key { s.slot key with dirty := false }
      infl := some (.cmd key (s.slot key).dirty (gapUs P key.proto) (P.pauseUs key.proto key.kind (s.slot key).payload) s.now)
      driver := some (.tx (P.enc key.proto key.kind (wireAddr P s.mmCorr key) (s.slot key).payload).bits
        ⟨key.proto, classOfKind key.kind, s.spiSel⟩)
      out := if s.trigEnabled (classOfKind key.kind) then s.out ++ [.trig (classOfKind key.kind)] else s.out } :=
  trig_eq _ _

/-- Settles O29: the PSB's step is SCHED_SELECT of the key, whose effect is read off `schedSelect_eq`. -/
theorem schedSelectStartsTheBestPacket : Obligations.SchedSelectStartsTheBestPacket := by
  intro s key hm ht hi hdue he hfirst
  have hrule : psbRule params { s with out := [] } = some (.schedSelect key) :=
    (psbRule_out_nil params s).trans (psbRuleAt_schedSelect hm ht hi hdue he hfirst)
  have hslot := schedSelect_slot params key { s with out := [] }
  refine ⟨schedSelect params key { s with out := [] }, ?_, (hslot key).trans (if_pos rfl),
    fun k hk => (hslot k).trans (if_neg hk), ?_, ?_⟩
  · rw [step_offering, agentStep, psbStep_of_rule hrule, runPsbRule]
  · rw [schedSelect_eq]
    exact Arena.wf_write _ _ _
  · rw [schedSelect_eq, gapOf_eq]
    cases hk : key.kind <;> rfl

/-! ### Nothing else starts a registry packet -/

/-- Of the PSB's rules only SCHED_SELECT of the key puts a packet of the key in flight. -/
theorem eq_schedSelect_of_starts {P : Params} {r : PsbRule} {s : State} {key : SlotKey} {w : Bool} {gap pause t : Nat}
    (hi : s.infl = none) (h : (runPsbRule P r s).infl = some (.cmd key w gap pause t)) : r = .schedSelect key := by
  cases r with
  | schedSelect k =>
    rw [runPsbRule, schedSelect_infl] at h
    cases h
    rfl
  | transmit => simp [runPsbRule, smTransmit, trig_eq] at h
  | s88Start | sample => cases h
  | switchOut =>
    obtain ⟨q, o, hs⟩ := switchOut_frame P s
    simp [runPsbRule, hs, hi] at h
  | retry =>
    obtain ⟨r, hs⟩ := smRetry_frame P s
    simp [runPsbRule, hs, hi] at h
  | switchIn | selectOp | done | failed => exact absurd (hi.symm.trans h) (by simp)

/-- Of the agents' steps only the PSB's SCHED_SELECT of the key puts a packet of the key in flight. -/
theorem agentStep_starts {P : Params} {a : AgentStep} {s : State} {key : SlotKey} {w : Bool} {gap pause t : Nat}
    (hi : s.infl = none) (h : (agentStep P a s).infl = some (.cmd key w gap pause t)) :
    a = .psb ∧ psbRule P s = some (.schedSelect key) := by
  cases a with
  | host w => rw [agentStep, hostStep_infl, hi] at h; cases h
  | pop =>
    obtain ⟨q, out, hs⟩ := popStep_frame s
    simp [agentStep, hs, hi] at h
  | clock dt =>
    obtain ⟨n, out, _, hs⟩ := clockStep_frame P dt s
    simp [agentStep, hs, hi] at h
  | driver d =>
    obtain hs | ⟨f, hf, _⟩ := driverStep_cases P d s
    · simp [agentStep, hs, passedOver, hi] at h
    · rw [hi] at hf; cases hf
  | reset => cases h
  | psb =>
    rw [agentStep] at h
    cases hr : psbRule P s with
    | none => simp [psbStep_of_none hr, passedOver, hi] at h
    | some r =>
      rw [psbStep_of_rule hr] at h
      exact ⟨rfl, by rw [eq_schedSelect_of_starts hi h]⟩

/-- A step that starts a packet of the key is SCHED_SELECT of the key. -/
theorem StartsPacket.schedSelect {s : State} {key : SlotKey} (h : StartsPacket key s) :
    nextOffer s = .psb ∧ psbRule params s = some (.schedSelect key) := by
  obtain ⟨hi, w, gap, pause, t, hinfl⟩ := h
  rw [nextState_eq] at hinfl
  rw [← psbRule_takeOffer]
  exact agentStep_starts ((takeOffer_infl s).trans hi) hinfl

/-- Settles O30: whatever starts a registry packet is SCHED_SELECT, and so was taken under its conditions. -/
theorem packetsStartOnlyWhenEligibleAndFirst : Obligations.PacketsStartOnlyWhenEligibleAndFirst := by
  intro s key h
  obtain ⟨hoffer, hrule⟩ := h.schedSelect
  obtain ⟨he, hm, ht, hfirst⟩ := schedSelect_conditions hrule
  exact ⟨he, hm, ht, hfirst, by rw [nextState_eq, hoffer, agentStep, psbStep_now, takeOffer_now]⟩

end Sys2Proof.Machine

/-! ## SCHED_DONE (41_scheduler.md R160 to R166) -/

namespace Sys2Proof.Machine

theorem PauseRegs.get_raise (r : PauseRegs) (p q : Proto) (t : Nat) :
    (r.raise p t).get q = if q = p then max (r.get p) t else r.get q := by
  cases p <;> cases q <;> rfl

/-- `dirty` after a completion: a TIMING_MISS on a valid slot restores it (41_scheduler.md R164, R165). -/
def dirtyAfter (st : TxStatus) (wasDirty : Bool) (sl : Slot) : Bool :=
  if st = .timingMiss ∧ sl.valid = true then sl.dirty || wasDirty else sl.dirty

/-- The event of a completion of a registry packet (60_exceptions.md R310), if its status has one. -/
def schedEvent (key : SlotKey) : TxStatus → Option Event
  | .ok => none
  | .timingMiss => some (.timingMiss (protoCode key.proto) key.addr (classOfKind key.kind))
  | .fault => some (.driverFault (classOfKind key.kind))

/-- The slots after SCHED_DONE, for every status. -/
theorem schedDone_slot (P : Params) (key : SlotKey) (w : Bool) (gap pause : Nat) (st : TxStatus) (s : State)
    (k : SlotKey) :
    (schedDone P key w gap pause st s).slot k =
      if k = key then { s.slot key with eligibleAt := s.now + gap, dirty := dirtyAfter st w (s.slot key) }
      else s.slot k := by
  have htimers := schedTimers_slot key gap pause s
  cases st with
  | ok => exact htimers k
  | fault => exact htimers k
  | timingMiss =>
    rw [schedDone, emit_slot, restoreDirty, htimers key, if_pos rfl]
    cases hv : (s.slot key).valid with
    | false => simp [htimers k, dirtyAfter, hv]
    | true => by_cases hk : k = key <;> simp [htimers k, dirtyAfter, hv, hk]

/-- SCHED_DONE keeps the arena's form. -/
theorem schedDone_wf (P : Params) (key : SlotKey) (w : Bool) (gap pause : Nat) (st : TxStatus) (s : State)
    (h : s.arena.wf = true) : (schedDone P key w gap pause st s).arena.wf = true := by
  have htimers : (schedTimers key gap pause s).arena.wf = true := Arena.wf_write _ _ _ h
  cases st with
  | ok => exact htimers
  | fault => exact htimers
  | timingMiss =>
    simp only [schedDone, restoreDirty]
    split
    · exact Arena.wf_write _ _ _ htimers
    · exact htimers

/-- The event queue after SCHED_DONE is the old one with the event of the status. -/
theorem schedDone_queue (P : Params) (key : SlotKey) (w : Bool) (gap pause : Nat) (st : TxStatus) (s : State) :
    (schedDone P key w gap pause st s).evq = (emitAll P (schedEvent key st).toList s).evq ∧
      (schedDone P key w gap pause st s).evovf = (emitAll P (schedEvent key st).toList s).evovf := by
  cases st with
  | ok => exact ⟨rfl, rfl⟩
  | fault => exact ⟨rfl, rfl⟩
  | timingMiss =>
    obtain ⟨a, h⟩ := restoreDirty_frame key w (schedTimers key gap pause s)
    rw [schedDone, h]
    exact ⟨rfl, rfl⟩

/-- A registry packet may complete from its start on (60_exceptions.md R331). -/
theorem driverStep_cmd {P : Params} {d : Draw} {s : State} {key : SlotKey} {w : Bool} {gap pause t : Nat}
    (h : s.infl = some (.cmd key w gap pause t)) (ht : t ≤ s.now) :
    driverStep P d s = schedDone P key w gap pause d.status s := by
  have hen : driverEnabled P s d = true := by simp [driverEnabled, h, ht]
  rw [driverStep, if_pos hen, complete_cmd h]

/-- Settles O31: the completion is SCHED_DONE, field by field. -/
theorem schedDoneSetsTheTimers : Obligations.SchedDoneSetsTheTimers := by
  intro s d key w gap pause t0 hinfl ht0
  have hslot := schedDone_slot params key w gap pause d.status { s with out := [] }
  have hkey := (hslot key).trans (if_pos rfl)
  obtain ⟨hevq, hevovf⟩ := schedDone_queue params key w gap pause d.status { s with out := [] }
  obtain ⟨a, q, o, hframe⟩ := schedDone_frame params key w gap pause d.status { s with out := [] }
  have hpause := fun p => congrArg (PauseRegs.get · p) (congrArg State.pauseUntil hframe)
  simp only [PauseRegs.get_raise] at hpause
  refine ⟨schedDone params key w gap pause d.status { s with out := [] }, ?_, ?_, ?_, ?_, ?_,
    fun k hk => (hslot k).trans (if_neg hk), fun hwf => schedDone_wf params key w gap pause d.status _ hwf,
    ?_, ?_, ?_, ?_, ?_, ?_, ?_, ?_⟩
  · rw [step_offering, agentStep, driverStep_cmd (s := { s with out := [] }) hinfl ht0]
  · rw [hkey]
  · rw [hkey]; rfl
  · rw [hkey]; rfl
  · rw [hkey]; rfl
  · exact (hpause key.proto).trans (if_pos rfl)
  · exact fun p hp => (hpause p).trans (if_neg hp)
  · rw [hframe]; exact satInc_toNat _
  · rw [hframe]; rfl
  · intro hst; rw [hevq, hevovf, hst]; exact ⟨rfl, rfl⟩
  · intro hst; rw [hevq, hevovf, hst]; exact ⟨rfl, rfl⟩
  · intro hst; rw [hevq, hevovf, hst]; exact ⟨rfl, rfl⟩
  · rw [hframe]

end Sys2Proof.Machine

/-! ## Idling and the passage of time (41_scheduler.md R175, R176) -/

namespace Sys2Proof.Machine

/-! ### The least of some times -/

theorem least_eq_none_iff {l : List Nat} : least l = none ↔ l = [] := by
  cases l with
  | nil => simp [least]
  | cons t ts => cases h : least ts <;> simp [least, h]

theorem least_eq_some_iff {l : List Nat} {w : Nat} : least l = some w ↔ w ∈ l ∧ ∀ x ∈ l, w ≤ x := by
  induction l generalizing w with
  | nil => simp [least]
  | cons t ts ih =>
    rw [List.mem_cons, List.forall_mem_cons]
    cases h : least ts with
    | none =>
      rw [least_eq_none_iff.1 h]
      simp only [least, Option.some.injEq, List.not_mem_nil, or_false]
      exact ⟨fun he => ⟨he.symm, he.ge, nofun⟩, fun ⟨he, _⟩ => he.symm⟩
    | some u =>
      obtain ⟨hmem, hle⟩ := ih.1 h
      simp only [least, h, Option.some.injEq]
      constructor
      · rintro rfl
        refine ⟨?_, min_le_left t u, fun x hx => (min_le_right t u).trans (hle x hx)⟩
        obtain ht | hu := min_choice t u
        · exact .inl ht
        · exact .inr (hu.symm ▸ hmem)
      · rintro ⟨rfl | hw, hwt, hwts⟩
        · exact min_eq_left (hwts u hmem)
        · exact (min_eq_right ((hle w hw).trans hwt)).trans (le_antisymm (hle w hw) (hwts u hmem))

/-! ### The wake time -/

/-- A valid slot is eligible from the later of its gap's end and its protocol's pause's end on (41_scheduler.md R152). -/
theorem eligibleAt_iff_max_le {s : State} {t : Nat} {key : SlotKey} :
    EligibleAt s t key ↔
      (s.slot key).valid = true ∧ max (s.slot key).eligibleAt (s.pauseUntil.get key.proto) ≤ t := by
  rw [EligibleAt, max_le_iff]

/-- The list the model takes the wake time from has the times (i), (ii) and (iii) of 41_scheduler.md R175. -/
theorem mem_wakeTimes_iff {s : State} {x : Nat} : x ∈ wakeTimes s ↔ WakeTime s x := by
  have hslots : x ∈ (s.arena.keys.filter (fun k => (s.slot k).valid)).map
      (fun k => max (s.slot k).eligibleAt (s.pauseUntil.get k.proto)) ↔
      ∃ k, (s.slot k).valid = true ∧ x = max (s.slot k).eligibleAt (s.pauseUntil.get k.proto) := by
    simp only [List.mem_map, List.mem_filter]
    exact ⟨fun ⟨k, hk, hx⟩ => ⟨k, hk.2, hx.symm⟩, fun ⟨k, hv, hx⟩ => ⟨k, ⟨Arena.mem_keys_of_valid hv, hv⟩, hx.symm⟩⟩
  simp only [wakeTimes, List.mem_append, List.mem_ite_nil_right, hslots, List.mem_singleton, WakeTime, or_assoc, and_assoc]

theorem wake_eq_some_iff {s : State} {w : Nat} : wake s = some w ↔ WakeTime s w ∧ ∀ x, WakeTime s x → w ≤ x := by
  simp only [wake, least_eq_some_iff, mem_wakeTimes_iff]

/-- The wake time has come exactly when one of the times has. -/
theorem wake_le_iff {s : State} {t : Nat} : (∃ w, wake s = some w ∧ w ≤ t) ↔ ∃ x, WakeTime s x ∧ x ≤ t := by
  constructor
  · rintro ⟨w, hw, hle⟩
    exact ⟨w, (wake_eq_some_iff.1 hw).1, hle⟩
  · rintro ⟨x, hx, hle⟩
    cases hw : wake s with
    | none =>
      rw [wake, least_eq_none_iff] at hw
      rw [← mem_wakeTimes_iff, hw] at hx
      cases hx
    | some w => exact ⟨w, rfl, ((wake_eq_some_iff.1 hw).2 x hx).trans hle⟩

/-! ### What becomes enabled as time passes -/

/-- A poll that is not granted now is granted later by the time trigger alone (45_s88_mfx.md R290, R292). -/
theorem s88_granted_later_iff {P : Params} {s : State} {t : Nat} (hnow : ¬(s88Due P s s.now && s88Allowed s) = true) :
    (s88Due P s t && s88Allowed s) = true ↔
      s.s88En = true ∧ 0 < s.s88Maxint.toNat ∧ s88Allowed s = true ∧ s.s88Last + s.s88Maxint.toNat ≤ t := by
  simp only [s88Due, Bool.and_eq_true, Bool.or_eq_true] at hnow ⊢
  constructor
  · rintro ⟨⟨hen, hcount | htime⟩, hal⟩
    · exact absurd ⟨⟨hen, .inl hcount⟩, hal⟩ hnow
    · obtain ⟨hpos, hle⟩ := of_decide_eq_true htime
      exact ⟨hen, hpos, hal, hle⟩
  · rintro ⟨hen, hpos, hal, hle⟩
    exact ⟨⟨hen, .inr (decide_eq_true ⟨hpos, hle⟩)⟩, hal⟩

/-- The sequencer's step, if none is enabled now, is enabled later by the deadline of a sample alone (43_service_mode.md
R230, R236). -/
theorem sequencerRule_later_iff {s : State} {t : Nat} (hnow : ¬(sequencerRule s s.now).isSome = true) :
    (sequencerRule s t).isSome = true ↔ s.sm.state = .sample ∧ s.sm.deadline ≤ t := by
  cases hst : s.sm.state <;> simp [sequencerRule, hst] at hnow ⊢

theorem best_cand_isSome_iff {s : State} {t : Nat} : (best s (cand s t)).isSome = true ↔ ∃ k, EligibleAt s t k := by
  rw [Option.isSome_iff_ne_none, Ne, best_eq_none_iff, List.eq_nil_iff_forall_not_mem]
  simp [mem_cand_iff]

/-- In NORMAL with no switch pending a step is enabled for a due poll or an eligible slot (41_scheduler.md R170). -/
theorem psbRuleAt_normal_isSome_iff {P : Params} {s : State} (hi : s.infl = none) (hm : s.mode = .normal)
    (ht : s.target = false) (t : Nat) : (psbRuleAt P s t).isSome = true ↔
      (s88Due P s t && s88Allowed s) = true ∨ ∃ k, EligibleAt s t k := by
  rw [psbRuleAt_normal hi hm ht, ← best_cand_isSome_iff]
  split <;> simp [*]

/-- In SERVICE with no switch pending a step is enabled for a due poll or by the sequencer (43_service_mode.md R230). -/
theorem psbRuleAt_service_isSome_iff {P : Params} {s : State} (hi : s.infl = none) (hm : s.mode = .service)
    (ht : s.target = true) (t : Nat) : (psbRuleAt P s t).isSome = true ↔
      (s88Due P s t && s88Allowed s) = true ∨ (sequencerRule s t).isSome = true := by
  rw [psbRuleAt_service hi hm ht]
  split <;> simp [*]

/-- A pending mode switch is enabled at every time, so none is pending where nothing is enabled. -/
theorem not_switchPending_of_psbRule_none {P : Params} {s : State} (hi : s.infl = none) (hnow : psbRule P s = none) :
    ¬switchPending s := by
  rintro (⟨hm, ht⟩ | ⟨hm, ht⟩)
  · rw [psbRule, psbRuleAt_switchIn hi hm ht] at hnow
    cases hnow
  · rw [psbRule, psbRuleAt_switchOut hi hm ht] at hnow
    cases hnow

/-- With nothing in flight and nothing enabled now, a step of the PSB is enabled at a later time exactly when one of the times
of 41_scheduler.md R175 has come: by the mode, an eligible slot, a due poll or an awaited sample. -/
theorem psbRuleAt_isSome_iff {P : Params} {s : State} {t : Nat} (hi : s.infl = none) (hnow : psbRule P s = none) :
    (psbRuleAt P s t).isSome = true ↔ ∃ x, WakeTime s x ∧ x ≤ t := by
  by_cases hh : s.mode = .halted
  · simp [psbRuleAt_halted hh, WakeTime, s88Allowed, hh]
  have hquiet : ¬(psbRuleAt P s s.now).isSome = true := by rw [← psbRule, hnow]; exact Bool.false_ne_true
  obtain ⟨hm, ht⟩ | ⟨hm, ht⟩ := mode_target_of_not_switchPending hh (not_switchPending_of_psbRule_none hi hnow)
  · rw [psbRuleAt_normal_isSome_iff hi hm ht, not_or] at hquiet
    rw [psbRuleAt_normal_isSome_iff hi hm ht, s88_granted_later_iff hquiet.1]
    constructor
    · rintro (⟨hen, hpos, hal, hle⟩ | ⟨k, hk⟩)
      · exact ⟨_, .inr (.inl ⟨hen, hpos, hal, rfl⟩), hle⟩
      · obtain ⟨hv, hle⟩ := eligibleAt_iff_max_le.1 hk
        exact ⟨_, .inl ⟨hm, ht, k, hv, rfl⟩, hle⟩
    · rintro ⟨x, ⟨_, _, k, hv, rfl⟩ | ⟨hen, hpos, hal, rfl⟩ | ⟨hservice, _⟩, hle⟩
      · exact .inr ⟨k, eligibleAt_iff_max_le.2 ⟨hv, hle⟩⟩
      · exact .inl ⟨hen, hpos, hal, hle⟩
      · exact absurd (hm.symm.trans hservice) Mode.noConfusion
  · rw [psbRuleAt_service_isSome_iff hi hm ht, not_or] at hquiet
    rw [psbRuleAt_service_isSome_iff hi hm ht, s88_granted_later_iff hquiet.1, sequencerRule_later_iff hquiet.2]
    constructor
    · rintro (⟨hen, hpos, hal, hle⟩ | ⟨hst, hle⟩)
      · exact ⟨_, .inr (.inl ⟨hen, hpos, hal, rfl⟩), hle⟩
      · exact ⟨_, .inr (.inr ⟨hm, hst, rfl⟩), hle⟩
    · rintro ⟨x, ⟨hnormal, _⟩ | ⟨hen, hpos, hal, rfl⟩ | ⟨_, hst, rfl⟩, hle⟩
      · exact absurd (hm.symm.trans hnormal) Mode.noConfusion
      · exact .inl ⟨hen, hpos, hal, hle⟩
      · exact .inr ⟨hst, hle⟩

theorem psbRuleAt_isSome_iff_wake_le {P : Params} {s : State} {t : Nat} (hi : s.infl = none)
    (hnow : psbRule P s = none) : (psbRuleAt P s t).isSome = true ↔ ∃ w, wake s = some w ∧ w ≤ t :=
  (psbRuleAt_isSome_iff hi hnow).trans wake_le_iff.symm

/-- Settles O32: the enabled times and the minimum, both by way of the times of R175. -/
theorem wakeTimeIsTheLeastEnabledTime : Obligations.WakeTimeIsTheLeastEnabledTime :=
  ⟨fun _ hi hnow _ _ => psbRuleAt_isSome_iff_wake_le hi hnow, fun _ _ => wake_eq_some_iff⟩

/-! ### The CLOCK -/

/-- The CLOCK's condition with nothing in flight, in terms of the PSB's choice: no step is enabled before the time the CLOCK
goes to (41_scheduler.md R176, R185). -/
theorem clockEnabled_iff {P : Params} {s : State} {dt : Nat} (hpos : 0 < dt) (hi : s.infl = none) :
    clockEnabled P dt s = true ↔ ∀ u, s.now ≤ u → u < s.now + dt → psbRuleAt P s u = none := by
  have hen : clockEnabled P dt s = true ↔
      psbRule P s = none ∧ ∀ w, wake s = some w → s.now + dt ≤ w := by
    simp [clockEnabled, hpos, State.busy, hi, Option.all_eq_true]
  rw [hen]
  constructor
  · rintro ⟨hnow, hw⟩ u _ hu
    by_contra hsome
    obtain ⟨w, hwake, hle⟩ :=
      (psbRuleAt_isSome_iff_wake_le hi hnow).1 (Option.isSome_iff_ne_none.2 hsome)
    have := hw w hwake
    omega
  · intro h
    have hnow : psbRule P s = none := h s.now le_rfl (Nat.lt_add_of_pos_right hpos)
    refine ⟨hnow, fun w hwake => ?_⟩
    by_contra hlt
    have hsome : (psbRuleAt P s (max s.now w)).isSome = true :=
      (psbRuleAt_isSome_iff_wake_le hi hnow).2 ⟨w, hwake, le_max_right _ _⟩
    rw [h (max s.now w) (le_max_left _ _) (by omega)] at hsome
    cases hsome

theorem clockEnabled_of_infl {P : Params} {s : State} {dt : Nat} (hpos : 0 < dt) (hi : s.infl ≠ none) :
    clockEnabled P dt s = true := by
  simp [clockEnabled, hpos, (busy_iff s).2 hi]

/-- The CLOCK moves NOW by dt exactly when it is enabled. -/
theorem clockStep_eq_withNow_iff {P : Params} {s : State} {dt : Nat} (hpos : 0 < dt) :
    clockStep P dt s = s.withNow (s.now + dt) ↔ clockEnabled P dt s = true := by
  refine ⟨fun h => ?_, fun h => if_pos h⟩
  by_contra hen
  rw [clockStep, if_neg hen] at h
  have hnow : s.now = s.now + dt := congrArg State.now h
  omega

/-- The labels of the step before do not bear on the CLOCK. -/
theorem clockEnabled_out_nil (P : Params) (dt : Nat) (s : State) :
    clockEnabled P dt { s with out := [] } = clockEnabled P dt s := by
  rw [clockEnabled, psbRule_out_nil]
  rfl

theorem step_clock_iff {s : State} {dt : Nat} (hpos : 0 < dt) :
    step (s.offering (.clock dt)) = .next { s with now := s.now + dt, out := [] } ↔ clockEnabled params dt s = true := by
  rw [step_offering, Host.Outcome.next.injEq, ← clockEnabled_out_nil]
  exact clockStep_eq_withNow_iff hpos

/-- No agent's step but the CLOCK's and reset moves NOW (10_state.md R31). -/
theorem agentStep_moves_now {P : Params} {a : AgentStep} {s : State} (h : (agentStep P a s).now ≠ s.now)
    (hr : a ≠ .reset) : ∃ dt, a = .clock dt ∧ 0 < dt ∧ (agentStep P a s).now = s.now + dt := by
  cases a with
  | host w => exact absurd (hostStep_now P w s) h
  | psb => exact absurd (psbStep_now P s) h
  | pop =>
    obtain ⟨q, out, hs⟩ := popStep_frame s
    exact absurd (by rw [agentStep, hs]) h
  | driver d =>
    obtain hs | ⟨f, hf, _, hs⟩ := driverStep_cases P d s
    · exact absurd (by rw [agentStep, hs]; rfl) h
    · obtain ⟨_, _, _, _, _, _, _, _, _, _, _, hc⟩ := complete_frame (P := P) (d := d) hf
      exact absurd (by rw [agentStep, hs, hc]) h
  | clock dt =>
    rw [agentStep, clockStep] at h ⊢
    by_cases hen : clockEnabled P dt s = true
    · rw [if_pos hen] at h ⊢
      have hne : s.now + dt ≠ s.now := h
      exact ⟨dt, rfl, by omega, rfl⟩
    · rw [if_neg hen] at h
      exact absurd rfl h
  | reset => exact absurd rfl hr

/-- Settles O33: the CLOCK's condition by the wake time, and the frames of the other agents' steps. -/
theorem timePassesOnlyWhileNothingIsEnabled : Obligations.TimePassesOnlyWhileNothingIsEnabled := by
  refine ⟨fun s dt hpos hi => (step_clock_iff hpos).2 (clockEnabled_of_infl hpos hi),
    fun s dt hpos hi => (step_clock_iff hpos).trans (clockEnabled_iff hpos hi), fun s t hstep hne hr => ?_⟩
  obtain rfl := step_eq_next_iff.1 hstep
  rw [← takeOffer_now s] at hne ⊢
  exact agentStep_moves_now hne hr

end Sys2Proof.Machine

/-! ## The gap between two packets to one key (41_scheduler.md R184) -/

namespace Sys2Proof.Machine

theorem Inv.flightGapOk {P : Params} {s : State} (h : Inv P s) : FlightGapOk P s.infl := by
  rintro key w gap pause t hf
  have hflight := h.flight
  rw [hf] at hflight
  obtain ⟨_, hgap, _⟩ := hflight
  exact hgap

/-- What a run without reset keeps from the completion of a packet of the key at time d on: the time is not before d, and the
key is locked out until the gap after d is over. -/
structure LockedOut (key : SlotKey) (d : Nat) (s : State) : Prop where
  past : d ≤ s.now
  gap : d + gapOf key.proto ≤ (s.slot key).eligibleAt
  flight : FlightGapOk params s.infl

theorem nextState_flightGapOk {s : State} (h : FlightGapOk params s.infl) : FlightGapOk params (nextState s).infl := by
  rw [nextState_eq]
  exact agentStep_flightGapOk _ (by rwa [takeOffer_infl])

theorem now_le_nextState {s : State} (hr : nextOffer s ≠ .reset) : s.now ≤ (nextState s).now := by
  rw [nextState_eq]
  simpa using (agentStep_now_pause_le (P := params) (s := takeOffer s) hr).1

/-- The step that completes a packet of the key locks the key out. -/
theorem lockedOut_of_completes {s : State} {key : SlotKey} (hgap : FlightGapOk params s.infl)
    (h : CompletesPacket key s) : LockedOut key s.now (nextState s) := by
  obtain ⟨d, w, gap, pause, t, hoffer, hf, ht⟩ := h
  have hnext : nextState s = schedDone params key w gap pause d.status (takeOffer s) := by
    rw [nextState_eq, hoffer, agentStep, driverStep_cmd ((takeOffer_infl s).trans hf) (ht.trans_eq (takeOffer_now s).symm)]
  refine ⟨now_le_nextState (by simp [hoffer]), ?_, nextState_flightGapOk hgap⟩
  rw [hnext, schedDone_eligibleAt, if_pos rfl, takeOffer_now, hgap _ _ _ _ _ hf, gapOf_eq]

/-- No step but reset ends the lock-out: `eligible_at` is kept, or raised by a creation, or set by a later completion, whose
gap ends no earlier. -/
theorem LockedOut.nextState {key : SlotKey} {d : Nat} {s : State} (h : LockedOut key d s) (hr : nextOffer s ≠ .reset) :
    LockedOut key d (nextState s) := by
  obtain ⟨hpast, hgap, hflight⟩ := h
  refine ⟨hpast.trans (now_le_nextState hr), ?_, nextState_flightGapOk hflight⟩
  obtain hsame | ⟨_, _, gap, _, _, _, hf, _, hset⟩ | ⟨_, _, hset⟩ := nextState_eligibleAt_cases hr key
  · rwa [hsame]
  · rw [hset, hflight _ _ _ _ _ hf, ← gapOf_eq]
    exact Nat.add_le_add_right hpast _
  · exact hset ▸ hgap.trans (le_max_left _ _)

theorem LockedOut.after {key : SlotKey} {d : Nat} {s : State} (h : LockedOut key d s) {n : Nat} (hr : ResetFree n s) :
    LockedOut key d (after n s) := by
  induction n with
  | zero => exact h
  | succ n ih =>
    rw [after_succ]
    exact (ih fun m hm => hr m (hm.trans (Nat.lt_succ_self n))).nextState (hr n (Nat.lt_succ_self n))

/-- Settles O34: the first step locks the key out, the run keeps the lock-out, and a packet starts only for an eligible slot.
The first step cannot itself be the start, since a packet is in flight there. -/
theorem gapIsKept : Obligations.GapIsKept := by
  intro s n key hinv hr hcomp hstart
  cases n with
  | zero =>
    obtain ⟨_, _, _, _, _, _, hf, _⟩ := hcomp
    obtain ⟨hfree, _⟩ := hstart
    rw [after, hf] at hfree
    cases hfree
  | succ n =>
    have hlock : LockedOut key s.now (after n (nextState s)) :=
      (lockedOut_of_completes hinv.flightGapOk hcomp).after fun m hm => hr (m + 1) (Nat.succ_lt_succ hm)
    obtain ⟨⟨_, helig, _⟩, _⟩ := schedSelect_conditions hstart.schedSelect.2
    exact hlock.gap.trans helig

end Sys2Proof.Machine

/-! ## Packets tell their commands apart (42_encoder_mux.md R197, R200, R204) -/

namespace Sys2Proof.Machine

/-- The decoder reads kind, wire address and payload back from a registry packet (42_encoder_mux.md R197). -/
theorem RoundTrip.dec_mux {P : Params} (h : RoundTrip P) (c : Bool) {key : SlotKey} {pl : Payload}
    (haddr : inRange P key.proto key.kind key.addr.toNat) (hpl : payloadLegal P key pl) :
    P.dec key.proto (mux P c key pl).bits = some (.registry key.kind (wireAddr P c key) pl) :=
  h.registry key _ pl ⟨haddr, hpl, wireAddr_translates P c key⟩

/-- The decoder reads phase, CV and data back from a service-mode packet (42_encoder_mux.md R197). -/
theorem RoundTrip.dec_muxSm {P : Params} (h : RoundTrip P) {p : Proto} {ph : SmPhase} {cv : BitVec 16} {d : SmData}
    (hin : encSmInput P p ph cv d) : P.dec p (muxSm P p ph cv d).bits = some (.service ph cv d) :=
  h.service p ph cv d hin

/-- Equal registry packets of one protocol have one kind, one wire address and one payload. -/
theorem RoundTrip.mux_injective {P : Params} (h : RoundTrip P) {c c' : Bool} {k j : SlotKey} {pl pj : Payload}
    (hproto : k.proto = j.proto) (hk : inRange P k.proto k.kind k.addr.toNat) (hj : inRange P j.proto j.kind j.addr.toNat)
    (hpl : payloadLegal P k pl) (hpj : payloadLegal P j pj) (hbits : (mux P c k pl).bits = (mux P c' j pj).bits) :
    k.kind = j.kind ∧ wireAddr P c k = wireAddr P c' j ∧ pl = pj := by
  have hdec := h.dec_mux c hk hpl
  rw [hbits, hproto, h.dec_mux c' hj hpj, Option.some.injEq, Decoded.registry.injEq] at hdec
  obtain ⟨hkind, hwire, hpay⟩ := hdec
  exact ⟨hkind.symm, hwire.symm, hpay.symm⟩

/-- Equal service-mode packets of one protocol have one phase, one CV and one data. -/
theorem RoundTrip.muxSm_injective {P : Params} (h : RoundTrip P) {p : Proto} {ph ph' : SmPhase} {cv cv' : BitVec 16}
    {d d' : SmData} (hin : encSmInput P p ph cv d) (hin' : encSmInput P p ph' cv' d')
    (hbits : (muxSm P p ph cv d).bits = (muxSm P p ph' cv' d').bits) : ph = ph' ∧ cv = cv' ∧ d = d' := by
  have hdec := h.dec_muxSm hin
  rw [hbits, h.dec_muxSm hin', Option.some.injEq, Decoded.service.injEq] at hdec
  obtain ⟨hph, hcv, hd⟩ := hdec
  exact ⟨hph.symm, hcv.symm, hd.symm⟩

/-- No registry packet is a service-mode packet of its protocol. -/
theorem RoundTrip.mux_bits_ne_muxSm {P : Params} (h : RoundTrip P) (c : Bool) {k : SlotKey} {pl : Payload} {ph : SmPhase}
    {cv : BitVec 16} {d : SmData} (hk : inRange P k.proto k.kind k.addr.toNat) (hpl : payloadLegal P k pl)
    (hin : encSmInput P k.proto ph cv d) : (mux P c k pl).bits ≠ (muxSm P k.proto ph cv d).bits := by
  intro hbits
  have hdec := h.dec_mux c hk hpl
  rw [hbits, h.dec_muxSm hin] at hdec
  cases hdec

/-- Under one setting of the correction, two addresses of one protocol go out as one wire address only if they are equal: the
shift is exact and never reduced (20_memory.md R86). -/
theorem addr_eq_of_wireAddr_eq {P : Params} {c : Bool} {k j : SlotKey} (hproto : k.proto = j.proto)
    (h : wireAddr P c k = wireAddr P c j) : k.addr = j.addr := by
  refine BitVec.eq_of_toNat_eq ?_
  rw [wireAddr, wireAddr, hproto] at h
  split at h <;> omega

/-- Settles O36: equal packets decode alike, and the round trip reads each command back from its packet. -/
theorem differentCommandsNeverShareAPacket : Obligations.DifferentCommandsNeverShareAPacket := by
  intro P hshift hround
  refine ⟨fun c c' k j pl pj hproto hk hj hpl hpj hbits => ?_,
    fun p ph cv d ph' cv' d' hin hin' => hround.muxSm_injective hin hin',
    fun c k pl ph cv d hk hpl hin => hround.mux_bits_ne_muxSm c hk hpl hin⟩
  obtain ⟨hkind, hwire, hpay⟩ := hround.mux_injective hproto hk hj hpl hpj hbits
  refine ⟨hkind, hpay, fun hc => ?_, ?_⟩
  · subst hc
    have haddr : k.addr = j.addr := addr_eq_of_wireAddr_eq hproto hwire
    cases k
    cases j
    exact (SlotKey.mk.injEq ..).mpr ⟨hproto, hkind, haddr⟩
  · rwa [wireAddr, wireAddr, hshift] at hwire

end Sys2Proof.Machine

/-! ## The service-mode commands (43_service_mode.md R221 to R224) -/

namespace Sys2Proof.Machine

/-! ### The request for service mode -/

/-- SMENTER of a protocol, outside HALTED: the target, then the support bit decide (43_service_mode.md R221). -/
theorem commandRule_smenter {P : Params} {s : State} (p : Proto) (hm : s.mode ≠ .halted) :
    commandRule P (.smenter (some p) 0) s =
      if s.target then .error .badMode else if P.smSupport p then .ok (s.withTarget true p) else .error .smUnsupported := by
  rw [commandRule, smenterRule, preCheck_of_not_halted hm rfl, bind_ok, protoOperand_some, bind_ok]
  cases s.target
  · cases P.smSupport p <;> rfl
  · rfl

/-- SMEXIT outside HALTED: the target decides (43_service_mode.md R222). -/
theorem commandRule_smexit {P : Params} {s : State} (hm : s.mode ≠ .halted) :
    commandRule P (.smexit 0) s = if s.target then .ok (s.withTarget false s.targetProto) else .error .badMode := by
  rw [commandRule, smexitRule, preCheck_of_not_halted hm rfl, bind_ok]
  cases s.target <;> rfl

/-- Settles O11: the target and the support bit decide between the answers of the rule. -/
theorem smenterRecordsTheRequest : Obligations.SmenterRecordsTheRequest := by
  refine ⟨fun s p hm ht => ?_, fun P s p hm ht hsup => ?_, exec_eq, fun s p hm ht => exec_of_error ?_⟩
  · have hrule := commandRule_smenter (P := params) p hm
    rw [ht, if_neg Bool.false_ne_true] at hrule
    by_cases hsup : params.smSupport p = true
    · rw [if_pos hsup] at hrule ⊢
      exact exec_of_ok hrule
    · rw [if_neg hsup] at hrule ⊢
      exact exec_of_error hrule
  · rw [execWith, commandRule_smenter p hm, ht, if_neg Bool.false_ne_true, if_pos hsup]
    rfl
  · rw [commandRule_smenter p hm, if_pos ht]

/-- Settles O12: the target decides between the answers of the rule. -/
theorem smexitWithdrawsTheRequest : Obligations.SmexitWithdrawsTheRequest := by
  refine ⟨fun s hm ht => exec_of_ok ?_, fun s hm ht => exec_of_error ?_⟩
  · rw [commandRule_smexit hm, if_pos ht]
    rfl
  · rw [commandRule_smexit hm, ht, if_neg Bool.false_ne_true]

/-! ### The creation of a session -/

/-- The checks of SMWRITE and SMREAD pass: SERVICE with no exit pending, no session, a CV in range. -/
theorem sessionCheck_ok {P : Params} {cv : BitVec 16} {s : State} (hm : s.mode = .service) (ht : s.target = true)
    (hop : s.sm.op = .none) (hlo : 1 ≤ cv.toNat) (hhi : cv.toNat ≤ P.cvMax s.sm.proto) :
    sessionCheck P cv s = .ok () := by
  simp [sessionCheck, hm, ht, hop, hlo, hhi]

theorem sessionCheck_badMode {P : Params} {cv : BitVec 16} {s : State} (h : s.mode = .normal ∨ s.target = false) :
    sessionCheck P cv s = .error .badMode := by
  have hno : ¬(s.mode = .service ∧ s.target = true) := by
    rintro ⟨hm, ht⟩
    obtain h | h := h
    · exact absurd (hm.symm.trans h) (by decide)
    · exact absurd (ht.symm.trans h) (by decide)
  rw [sessionCheck, decide_eq_false hno, require_false, bind_error]

theorem sessionCheck_smBusy {P : Params} {cv : BitVec 16} {s : State} (hm : s.mode = .service) (ht : s.target = true)
    (hop : s.sm.op ≠ .none) : sessionCheck P cv s = .error .smBusy := by
  simp [sessionCheck, hm, ht, hop]

theorem sessionCheck_badCv {P : Params} {cv : BitVec 16} {s : State} (hm : s.mode = .service) (ht : s.target = true)
    (hop : s.sm.op = .none) (hcv : cv.toNat = 0 ∨ P.cvMax s.sm.proto < cv.toNat) :
    sessionCheck P cv s = .error .badCv := by
  have hno : ¬(1 ≤ cv.toNat ∧ cv.toNat ≤ P.cvMax s.sm.proto) := by omega
  rw [sessionCheck, decide_eq_true ⟨hm, ht⟩, require_true, bind_ok, decide_eq_true hop, require_true, bind_ok,
    decide_eq_false hno, require_false]

/-- SMWRITE and SMREAD are rejected with the reason of their common checks (43_service_mode.md R223, R224). -/
theorem commandRule_session_error {P : Params} {i : Instr} {s : State} {cv : BitVec 16} {v : BitVec 8} {r : Reason}
    (hi : i = .smwrite 0 cv v ∨ i = .smread 0 cv 0) (hm : s.mode ≠ .halted) (hc : sessionCheck P cv s = .error r) :
    commandRule P i s = .error r := by
  obtain rfl | rfl := hi
  · rw [commandRule, smwriteRule, preCheck_of_not_halted hm rfl, bind_ok, hc, bind_error]
  · rw [commandRule, smreadRule, preCheck_of_not_halted hm rfl, bind_ok, hc, bind_error]

theorem Mode.ne_halted_of_service {m : Mode} (h : m = .service) : m ≠ .halted := by
  rw [h]; decide

/-- Settles O13: the common checks of the two commands, in their order. -/
theorem sessionCommandsCreateTheSession : Obligations.SessionCommandsCreateTheSession := by
  refine ⟨fun s cv v hm ht hop hlo hhi => exec_of_ok ?_, fun s cv hm ht hop hlo hhi => exec_of_ok ?_,
    fun s cv v i hi hm h => exec_of_error (commandRule_session_error hi hm (sessionCheck_badMode h)),
    fun s cv v i hi hm ht hop => exec_of_error (commandRule_session_error hi (Mode.ne_halted_of_service hm)
      (sessionCheck_smBusy hm ht hop)),
    fun s cv v i hi hm ht hop hcv => exec_of_error (commandRule_session_error hi (Mode.ne_halted_of_service hm)
      (sessionCheck_badCv hm ht hop hcv))⟩
  · rw [commandRule, smwriteRule, preCheck_of_not_halted (Mode.ne_halted_of_service hm) rfl, bind_ok,
      sessionCheck_ok hm ht hop hlo hhi, bind_ok, pure_ok]
    rfl
  · rw [commandRule, smreadRule, preCheck_of_not_halted (Mode.ne_halted_of_service hm) rfl, bind_ok,
      sessionCheck_ok hm ht hop hlo hhi, bind_ok, pure_ok]
    rfl

end Sys2Proof.Machine

/-! ## The mode switch and the sequencer's steps (43_service_mode.md R226, R227, R232 to R245) -/

namespace Sys2Proof.Machine

/-! ### The mode switch -/

/-- The PSB's step on its turn is the enabled rule's. -/
theorem step_psb_of_rule {s : State} {r : PsbRule} (h : psbRule params s = some r) :
    step (s.offering .psb) = .next (runPsbRule params r { s with out := [] }) := by
  rw [step_offering, agentStep, psbStep_of_rule ((psbRule_out_nil params s).trans h)]

/-- Settles O37: a pending entry comes first of all steps. -/
theorem switchIntoService : Obligations.SwitchIntoService := fun _ hi hm ht =>
  step_psb_of_rule (psbRuleAt_switchIn hi hm ht _)

/-- Settles O38: a pending exit comes first of all steps, whatever the session's state. -/
theorem switchOutOfServiceAborts : Obligations.SwitchOutOfServiceAborts := by
  refine ⟨fun s hi hm ht hop => ?_, fun s hi hm ht hop => ?_⟩
  · rw [step_psb_of_rule (psbRuleAt_switchOut hi hm ht _), runPsbRule, switchOut_of_session (s := { s with out := [] }) hop]
    rfl
  · rw [step_psb_of_rule (psbRuleAt_switchOut hi hm ht _), runPsbRule, switchOut_of_none (s := { s with out := [] }) hop]
    rfl

/-! ### The sequencer's turn -/

/-- At the sequencer's turn the PSB's rule is the one of SM_STATE (43_service_mode.md R230). -/
theorem ServiceTurn.psbRule_eq {s : State} (h : ServiceTurn s) : psbRule params s = sequencerRule s s.now :=
  psbRuleAt_sequencer h.free h.mode h.target (.inl h.quiet)

theorem ServiceTurn.step_psb {s : State} (h : ServiceTurn s) {r : PsbRule} (hr : sequencerRule s s.now = some r) :
    step (s.offering .psb) = .next (runPsbRule params r { s with out := [] }) :=
  step_psb_of_rule (h.psbRule_eq.trans hr)

theorem sequencerRule_selectop {s : State} {t : Nat} (h : s.sm.state = .selectop) :
    sequencerRule s t = some .selectOp := by rw [sequencerRule, h]
theorem sequencerRule_transmit {s : State} {t : Nat} (h : s.sm.state = .transmit) :
    sequencerRule s t = some .transmit := by rw [sequencerRule, h]
theorem sequencerRule_sample {s : State} {t : Nat} (h : s.sm.state = .sample) :
    sequencerRule s t = if s.sm.deadline ≤ t then some .sample else none := by rw [sequencerRule, h]
theorem sequencerRule_retry {s : State} {t : Nat} (h : s.sm.state = .retry) :
    sequencerRule s t = some .retry := by rw [sequencerRule, h]
theorem sequencerRule_done {s : State} {t : Nat} (h : s.sm.state = .done) :
    sequencerRule s t = some .done := by rw [sequencerRule, h]
theorem sequencerRule_failed {s : State} {t : Nat} (h : s.sm.state = .failed) :
    sequencerRule s t = some .failed := by rw [sequencerRule, h]

/-- Settles O39. -/
theorem selectOpStartsAnAttempt : Obligations.SelectOpStartsAnAttempt := fun _ h hst =>
  h.step_psb (sequencerRule_selectop hst)

/-- TRANSMIT starts the packet of the phase, and no session register changes (43_service_mode.md R233). -/
theorem smTransmit_eq (P : Params) (s : State) :
    smTransmit P s = { s with
      infl := some (.smpkt s.now)
      driver := some (.tx (P.encSm s.sm.proto s.sm.phase s.sm.cv (smData s.sm)).bits ⟨s.sm.proto, .sm, s.spiSel⟩)
      out := if s.trigEnabled .sm then s.out ++ [.trig .sm] else s.out } := trig_eq _ _

/-- Settles O40, by the effect of TRANSMIT. -/
theorem transmitStartsThePacketOfThePhase : Obligations.TransmitStartsThePacketOfThePhase := by
  intro s h hst
  rw [h.step_psb (sequencerRule_transmit hst), runPsbRule, smTransmit_eq]
  rfl

/-- SAMPLE does not yield to a poll, so its step needs no quiet chain (43_service_mode.md R236, 45_s88_mfx.md R292). -/
theorem psbRule_sample {s : State} (hm : s.mode = .service) (ht : s.target = true) (hi : s.infl = none)
    (hst : s.sm.state = .sample) :
    psbRule params s = if s.sm.deadline ≤ s.now then some .sample else none :=
  (psbRuleAt_sequencer hi hm ht (.inr hst)).trans (sequencerRule_sample hst)

/-- Settles O42: the deadline decides whether the sample is enabled. -/
theorem sampleOpensTheWindowAtTheDeadline : Obligations.SampleOpensTheWindowAtTheDeadline := by
  refine ⟨fun s hm ht hi hst hdue => step_psb_of_rule ((psbRule_sample hm ht hi hst).trans (if_pos hdue)),
    fun s hm ht hi hst hlt => ?_⟩
  have hrule := (psbRule_sample hm ht hi hst).trans (if_neg (Nat.not_le.2 hlt))
  rw [step_offering, agentStep, psbStep_of_none ((psbRule_out_nil params s).trans hrule)]
  rfl

/-- Settles O44: the retry count decides; below the maximum, at most 255, it does not wrap. -/
theorem retryRepeatsOrFails : Obligations.RetryRepeatsOrFails := by
  refine ⟨fun s h hst hlt => ⟨_, h.step_psb (sequencerRule_retry hst), ?_⟩, fun s h hst hle => ?_⟩
  · rw [runPsbRule, smRetry, if_pos hlt]
    have hmax := params_inRange.smRetryMax s.sm.proto
    have hadd : (s.sm.retry + 1).toNat = s.sm.retry.toNat + 1 := by bv_omega
    exact ⟨hadd, rfl⟩
  · rw [h.step_psb (sequencerRule_retry hst), runPsbRule, smRetry, if_neg (Nat.not_lt.2 hle)]
    rfl

/-- Settles O45. -/
theorem doneAndFailedReportTheOperation : Obligations.DoneAndFailedReportTheOperation :=
  ⟨fun _ h hst => h.step_psb (sequencerRule_done hst), fun _ h hst => h.step_psb (sequencerRule_failed hst)⟩

/-! ### The completion of a service-mode packet -/

/-- The event of a completion of a service-mode packet (60_exceptions.md R310), if its status has one. -/
def smPacketEvent (p : Proto) : TxStatus → Option Event
  | .ok => none
  | .timingMiss => some (.timingMiss (protoCode p) 0 .sm)
  | .fault => some (.driverFault .sm)

/-- SM_PKT_DONE, field by field, for every status (43_service_mode.md R234, R248). -/
theorem smPktDone_eq (P : Params) (st : TxStatus) (s : State) :
    smPktDone P st s = { s with
      infl := none, driver := none, pktCnt := satInc s.pktCnt, s88Last := s.now, mode := modeAfter st s.mode
      sm := if st = .fault then s.sm else smAfterPacket P s.now s.sm
      evq := (emitAll P (smPacketEvent s.sm.proto st).toList s).evq
      evovf := (emitAll P (smPacketEvent s.sm.proto st).toList s).evovf } := by
  cases st <;> rfl

/-- A service-mode packet may complete from its start on (60_exceptions.md R331). -/
theorem driverStep_smpkt {P : Params} {d : Draw} {s : State} {t : Nat} (h : s.infl = some (.smpkt t)) (ht : t ≤ s.now) :
    driverStep P d s = smPktDone P d.status s := by
  have hen : driverEnabled P s d = true := by simp [driverEnabled, h, ht]
  rw [driverStep, if_pos hen, complete, h]

theorem smAfterPacket_last_write {P : Params} {t : Nat} {r : SmRegs} (hp : r.phase = .write)
    (hr : (r.rep + 1).toNat = P.smWriteRepeat r.proto) :
    smAfterPacket P t r = { r with rep := r.rep + 1, phase := .verify } := by
  simp only [smAfterPacket, hp, if_pos hr]

theorem smAfterPacket_earlier_write {P : Params} {t : Nat} {r : SmRegs} (hp : r.phase = .write)
    (hr : (r.rep + 1).toNat ≠ P.smWriteRepeat r.proto) : smAfterPacket P t r = { r with rep := r.rep + 1 } := by
  simp only [smAfterPacket, hp, if_neg hr]

theorem smAfterPacket_of_ne_write {P : Params} {t : Nat} {r : SmRegs} (hp : r.phase ≠ .write) :
    smAfterPacket P t r = { r with deadline := t + P.smAckDelayUs r.proto, state := .sample } := by
  cases h : r.phase with
  | write => exact absurd h hp
  | bitv => simp only [smAfterPacket, h]
  | verify => simp only [smAfterPacket, h]

/-- Settles O41: the completion field by field, the session by the phase. -/
theorem smPacketDone : Obligations.SmPacketDone := by
  intro s d t0 hinfl ht0
  have hstep := step_offering s (.driver d)
  rw [agentStep, driverStep_smpkt (s := { s with out := [] }) hinfl ht0, smPktDone_eq] at hstep
  refine ⟨_, hstep, satInc_toNat s.pktCnt, rfl, fun hst => ?_, fun hst => ?_, fun hst => ?_, fun hst => ?_, rfl⟩
  · rw [hst]; exact ⟨rfl, rfl⟩
  · rw [hst]; exact ⟨rfl, rfl⟩
  · rw [hst]; exact ⟨rfl, rfl, rfl⟩
  · simp only [if_neg hst]
    exact ⟨smAfterPacket_last_write, smAfterPacket_earlier_write, smAfterPacket_of_ne_write⟩

/-! ### The completion of an acknowledgement sample -/

/-- A sample completes once its window has passed (60_exceptions.md R331). -/
theorem driverStep_ack {P : Params} {d : Draw} {s : State} {t : Nat} (h : s.infl = some (.ack t))
    (ht : t + P.smAckWindowUs s.sm.proto ≤ s.now) (hd : d.status = .ok) :
    driverStep P d s = { s with infl := none, driver := none, sm := smAfterAck d.ack s.sm } := by
  have hen : driverEnabled P s d = true := by simp [driverEnabled, h, ht, hd]
  rw [driverStep, if_pos hen, complete, h, hd]
  rfl

theorem driverStep_ack_early {P : Params} {d : Draw} {s : State} {t : Nat} (h : s.infl = some (.ack t))
    (ht : s.now < t + P.smAckWindowUs s.sm.proto) : driverStep P d s = passedOver s := by
  have hen : driverEnabled P s d = false := by simp [driverEnabled, h, ht]
  rw [driverStep, hen, if_neg Bool.false_ne_true]

theorem smAfterAck_earlier_bit {ack : Bool} {r : SmRegs} (hp : r.phase = .bitv) (hb : r.bit.toNat < 7) :
    smAfterAck ack r = { r with acc := setBit r.acc r.bit ack, bit := r.bit + 1, state := .transmit } := by
  simp only [smAfterAck, hp, if_pos hb]

theorem smAfterAck_last_bit {ack : Bool} {r : SmRegs} (hp : r.phase = .bitv) (hb : r.bit.toNat = 7) :
    smAfterAck ack r = { r with acc := setBit r.acc r.bit ack, phase := .verify, state := .transmit } := by
  simp [smAfterAck, hp, hb]

theorem smAfterAck_verify {ack : Bool} {r : SmRegs} (hp : r.phase = .verify) :
    smAfterAck ack r = { r with state := if ack then .done else .retry } := by
  simp only [smAfterAck, hp]

/-- Settles O43: the session after the sample, by the phase and by whether the bit is the last. -/
theorem smAckDone_advances_session : Obligations.SmAckDone := by
  refine ⟨fun s d t0 hinfl ht hd => ⟨{ s with infl := none, driver := none, sm := smAfterAck d.ack s.sm, out := [] },
    ?_, fun hp => ?_, smAfterAck_verify, rfl⟩, fun s d t0 hinfl ht => ?_⟩
  · rw [step_offering, agentStep, driverStep_ack (s := { s with out := [] }) hinfl ht hd]
  · have hbit := s.sm.bit.isLt
    obtain hb | hb : s.sm.bit.toNat < 7 ∨ s.sm.bit.toNat = 7 := by omega
    · rw [smAfterAck_earlier_bit hp hb]
      have hadd : (s.sm.bit + 1).toNat = s.sm.bit.toNat + 1 := by bv_omega
      exact ⟨rfl, setBit_getLsbD _ _ _, fun _ => ⟨hadd, hp⟩, fun h => absurd h hb.ne, rfl⟩
    · rw [smAfterAck_last_bit hp hb]
      exact ⟨rfl, setBit_getLsbD _ _ _, fun h => absurd hb h.ne, fun _ => ⟨rfl, rfl⟩, rfl⟩
  · rw [step_offering, agentStep, driverStep_ack_early (s := { s with out := [] }) hinfl ht]
    rfl

end Sys2Proof.Machine

/-! ## Service mode beside the scheduler (43_service_mode.md R249) -/

namespace Sys2Proof.Machine

/-- What a step of service mode may write; the slots, the pauses, the request, CTRL, S88_MAXINT, the frames and NOW are not
among it (43_service_mode.md R249). -/
def SchedulerKept (s t : State) : Prop :=
  ∃ f j m c l r q o out, t = { s with
    infl := f, driver := j, mode := m, pktCnt := c, s88Last := l, sm := r, evq := q, evovf := o, out := out }

/-- A rule of the PSB but SCHED_SELECT writes no slot. -/
theorem runPsbRule_keeps_scheduler {P : Params} {r : PsbRule} (s : State) (hr : ∀ key, r ≠ .schedSelect key) :
    SchedulerKept s (runPsbRule P r s) := by
  cases r with
  | schedSelect key => exact absurd rfl (hr key)
  | transmit => exact ⟨_, _, _, _, _, _, _, _, _, smTransmit_eq P s⟩
  | switchOut =>
    obtain ⟨q, o, h⟩ := switchOut_frame P s
    exact ⟨_, _, _, _, _, _, _, _, _, h⟩
  | retry =>
    obtain ⟨r, h⟩ := smRetry_frame P s
    exact ⟨_, _, _, _, _, _, _, _, _, h⟩
  | switchIn | s88Start | selectOp | sample | done | failed => exact ⟨_, _, _, _, _, _, _, _, _, rfl⟩

/-- SCHED_SELECT is not taken in SERVICE, so no step of the PSB there writes a slot. -/
theorem psbStep_keeps_scheduler {P : Params} {s : State} (hm : s.mode = .service) : SchedulerKept s (psbStep P s) := by
  cases h : psbRule P s with
  | none => rw [psbStep_of_none h]; exact ⟨_, _, _, _, _, _, _, _, _, rfl⟩
  | some r =>
    rw [psbStep_of_rule h]
    refine runPsbRule_keeps_scheduler s ?_
    rintro key rfl
    obtain ⟨_, hnormal, _⟩ := schedSelect_conditions h
    exact absurd (hm.symm.trans hnormal) (by decide)

/-- The completion of a service-mode packet or a sample, for every status. -/
theorem complete_keeps_scheduler {P : Params} {d : Draw} {s : State} {t0 : Nat}
    (h : s.infl = some (.smpkt t0) ∨ s.infl = some (.ack t0)) : SchedulerKept s (complete P d s) := by
  obtain h | h := h
  · rw [complete, h]
    exact ⟨_, _, _, _, _, _, _, _, _, smPktDone_eq P d.status s⟩
  · rw [complete, h]
    cases d.status with
    | ok | timingMiss | fault => exact ⟨_, _, _, _, _, _, _, _, _, rfl⟩

theorem driverStep_keeps_scheduler {P : Params} {d : Draw} {s : State} {t0 : Nat}
    (h : s.infl = some (.smpkt t0) ∨ s.infl = some (.ack t0)) : SchedulerKept s (driverStep P d s) := by
  obtain hs | ⟨_, _, _, hs⟩ := driverStep_cases P d s
  · rw [hs]; exact ⟨_, _, _, _, _, _, _, _, _, rfl⟩
  · rw [hs]; exact complete_keeps_scheduler h

/-- Settles O46, by the frames of the two agents' steps. -/
theorem sequencerLeavesTheSchedulerAlone : Obligations.SequencerLeavesTheSchedulerAlone := by
  intro s t hm hstep hoffer
  obtain rfl := step_eq_next_iff.1 hstep
  have hkept : SchedulerKept (takeOffer s) (agentStep params (nextOffer s) (takeOffer s)) := by
    obtain ho | ⟨d, t0, ho, hf⟩ := hoffer
    · rw [ho]
      exact psbStep_keeps_scheduler (by rwa [takeOffer_mode])
    · rw [ho]
      exact driverStep_keeps_scheduler (by rwa [takeOffer_infl])
  obtain ⟨_, _, _, _, _, _, _, _, _, hk⟩ := hkept
  obtain ⟨_, _, htake⟩ := takeOffer_eq s
  rw [hk, htake]
  exact ⟨rfl, rfl, rfl, rfl, rfl, rfl, rfl, rfl, rfl⟩

end Sys2Proof.Machine


/-! ## The acknowledged write (43_service_mode.md R235, R247)

The run is followed offer by offer: SELECTOP, the packet turns by induction, then the sample of the verify packet. -/

namespace Sys2Proof.Machine

/-! ### Steps of a run, by the offer at the head of the agenda -/

theorem nextState_of_cons {s : State} {a : AgentStep} {ag : List AgentStep} (ha : s.agenda = a :: ag) :
    nextState s = agentStep params a { s with agenda := ag, out := [] } := by
  rw [nextState_eq, nextOffer_of_cons ha, takeOffer_of_cons ha]

theorem nextState_psb {s : State} {ag : List AgentStep} {r : PsbRule} (ha : s.agenda = .psb :: ag)
    (hr : psbRule params s = some r) : nextState s = runPsbRule params r { s with agenda := ag, out := [] } := by
  have hrule := (psbRuleAt_offer params s s.now ag s.drawn []).trans hr
  rw [nextState_of_cons ha, agentStep, psbStep_of_rule hrule]

/-- A CLOCK step that is enabled, or over no time at all, leaves NOW later by its length. -/
theorem nextState_clock {s : State} {dt : Nat} {ag : List AgentStep} (ha : s.agenda = .clock dt :: ag)
    (h : 0 < dt → clockEnabled params dt s = true) :
    ∃ out, nextState s = { s with now := s.now + dt, agenda := ag, out := out } := by
  have hen : clockEnabled params dt { s with agenda := ag, out := [] } = clockEnabled params dt s := by
    rw [clockEnabled, psbRule, psbRuleAt_offer params s s.now ag s.drawn []]
    rfl
  rw [nextState_of_cons ha, agentStep, clockStep, hen]
  obtain rfl | hpos := Nat.eq_zero_or_pos dt
  · rw [clockEnabled, decide_eq_false (Nat.lt_irrefl 0), Bool.false_and, if_neg Bool.false_ne_true]
    exact ⟨_, rfl⟩
  · rw [if_pos (h hpos)]
    exact ⟨_, rfl⟩

/-- At an output opportunity in SAMPLE the CLOCK may go up to the deadline (41_scheduler.md R175, R176). -/
theorem clockEnabled_until_deadline {s : State} {dt : Nat} (hpos : 0 < dt) (hm : s.mode = .service)
    (ht : s.target = true) (hi : s.infl = none) (hst : s.sm.state = .sample) (hle : s.now + dt ≤ s.sm.deadline) :
    clockEnabled params dt s = true := by
  refine (clockEnabled_iff hpos hi).2 fun u _ hu => ?_
  rw [psbRuleAt_sequencer hi hm ht (.inr hst), sequencerRule_sample hst, if_neg (by omega)]

theorem after_add (m n : Nat) (s : State) : after (m + n) s = after n (after m s) := by
  induction n with
  | zero => rfl
  | succ n ih => rw [← Nat.add_assoc, after_succ, ih, after_succ]

/-! ### One packet, one sample -/

/-- With S88 polls off the sequencer has its turn at every output opportunity (45_s88_mfx.md R290). -/
theorem serviceTurn_of_s88_off {s : State} (hm : s.mode = .service) (ht : s.target = true) (hi : s.infl = none)
    (hoff : s.s88En = false) : ServiceTurn s :=
  ⟨hm, ht, hi, by rw [s88Due, hoff, Bool.false_and]⟩

theorem nextState_transmit {s : State} {ag : List AgentStep} (h : ServiceTurn s) (hst : s.sm.state = .transmit)
    (ha : s.agenda = .psb :: ag) :
    nextState s = { s with
      infl := some (.smpkt s.now)
      driver := some (.tx (params.encSm s.sm.proto s.sm.phase s.sm.cv (smData s.sm)).bits ⟨s.sm.proto, .sm, s.spiSel⟩)
      out := if s.trigEnabled .sm then [.trig .sm] else []
      agenda := ag } :=
  (nextState_psb ha (h.psbRule_eq.trans (sequencerRule_transmit hst))).trans (smTransmit_eq params _)

theorem nextState_packet_ok {s : State} {t : Nat} {ack : Bool} {ag : List AgentStep} (hi : s.infl = some (.smpkt t))
    (ht : t ≤ s.now) (ha : s.agenda = .driver (okDraw ack) :: ag) :
    nextState s = { s with
      infl := none, driver := none, pktCnt := satInc s.pktCnt, s88Last := s.now, sm := smAfterPacket params s.now s.sm
      agenda := ag, out := [] } :=
  (nextState_of_cons ha).trans (driverStep_smpkt (s := { s with agenda := ag, out := [] }) hi ht)

theorem nextState_ack_ok {s : State} {t : Nat} {ack : Bool} {ag : List AgentStep} (hi : s.infl = some (.ack t))
    (ht : t + params.smAckWindowUs s.sm.proto ≤ s.now) (ha : s.agenda = .driver (okDraw ack) :: ag) :
    nextState s = { s with infl := none, driver := none, sm := smAfterAck ack s.sm, agenda := ag, out := [] } :=
  (nextState_of_cons ha).trans (driverStep_ack (s := { s with agenda := ag, out := [] }) hi ht rfl)

/-- A packet that completes with OK when it starts (43_service_mode.md R233, R234). -/
theorem after_packet {s : State} {ag : List AgentStep} (h : ServiceTurn s) (hst : s.sm.state = .transmit)
    (ha : s.agenda = .psb :: .driver (okDraw false) :: ag) :
    after 2 s = { s with
      infl := none, driver := none, pktCnt := satInc s.pktCnt, s88Last := s.now, sm := smAfterPacket params s.now s.sm
      agenda := ag, out := [] } :=
  (congrArg nextState (nextState_transmit h hst ha)).trans (nextState_packet_ok rfl le_rfl rfl)

/-- A sample from its start at the deadline to its completion over the whole window (43_service_mode.md R236, R237). -/
theorem after_sample {s : State} {ack : Bool} {ag : List AgentStep} (hm : s.mode = .service) (ht : s.target = true)
    (hi : s.infl = none) (hst : s.sm.state = .sample) (hdl : s.sm.deadline ≤ s.now)
    (ha : s.agenda = .psb :: .clock (params.smAckWindowUs s.sm.proto) :: .driver (okDraw ack) :: ag) :
    after 3 s = { s with
      now := s.now + params.smAckWindowUs s.sm.proto, infl := none, driver := none, sm := smAfterAck ack s.sm
      agenda := ag, out := [] } := by
  have hstart : nextState s = { s with
      infl := some (.ack s.now), driver := some (.ack (params.smAckWindowUs s.sm.proto))
      agenda := .clock (params.smAckWindowUs s.sm.proto) :: .driver (okDraw ack) :: ag, out := [] } :=
    nextState_psb ha ((psbRule_sample hm ht hi hst).trans (if_pos hdl))
  obtain ⟨o, hwindow⟩ := nextState_clock (congrArg State.agenda hstart) fun hpos =>
    clockEnabled_of_infl hpos (by rw [hstart]; exact Option.some_ne_none _)
  rw [hstart] at hwindow
  calc after 3 s = nextState (nextState (nextState s)) := rfl
    _ = _ := by
      rw [hstart, hwindow]
      exact nextState_ack_ok rfl le_rfl rfl

/-- The sample of a verify packet that is acknowledged: the delay, the sample, and DONE (43_service_mode.md R236, R237,
R241). -/
theorem after_acknowledged_verify {s : State} {ag : List AgentStep} (hm : s.mode = .service) (ht : s.target = true)
    (hi : s.infl = none) (hoff : s.s88En = false) (hst : s.sm.state = .sample) (hp : s.sm.phase = .verify)
    (hdl : s.sm.deadline = s.now + params.smAckDelayUs s.sm.proto)
    (ha : s.agenda = .clock (params.smAckDelayUs s.sm.proto) :: .psb :: .clock (params.smAckWindowUs s.sm.proto) ::
      .driver (okDraw true) :: .psb :: ag) :
    after 5 s = emit params (.smResult s.sm.proto .ok s.sm.op s.sm.cv (smValue s.sm)) { s with
      sm := SmRegs.idle s.sm.proto, infl := none, driver := none
      now := s.now + params.smAckDelayUs s.sm.proto + params.smAckWindowUs s.sm.proto, agenda := ag, out := [] } := by
  obtain ⟨o, hdelay⟩ := nextState_clock ha fun hpos => clockEnabled_until_deadline hpos hm ht hi hst hdl.ge
  have hsample : after 3 (nextState s) = { s with
      now := s.now + params.smAckDelayUs s.sm.proto + params.smAckWindowUs s.sm.proto, infl := none, driver := none
      sm := { s.sm with state := .done }, agenda := .psb :: ag, out := [] } := by
    rw [hdelay]
    refine (after_sample (ack := true) (ag := .psb :: ag) (by exact hm) (by exact ht) (by exact hi) (by exact hst)
      (by exact hdl.le) rfl).trans ?_
    rw [smAfterAck_verify hp]
    rfl
  have hturn : ServiceTurn (after 3 (nextState s)) := by
    rw [hsample]
    exact serviceTurn_of_s88_off hm ht rfl hoff
  have hdone := nextState_psb (congrArg State.agenda hsample)
    (hturn.psbRule_eq.trans (sequencerRule_done (congrArg (fun s => s.sm.state) hsample)))
  rw [hsample] at hdone
  calc after 5 s = nextState (after 3 (nextState s)) := rfl
    _ = _ := by
      rw [hsample, hdone]
      rfl

/-! ### The packets of the attempt -/

/-- The session registers of a write attempt before the packet number m, counted from 0 (43_service_mode.md R232, R234). -/
def writeAttemptRegs (r : SmRegs) (m : Nat) : SmRegs :=
  { r with
    state := .transmit
    phase := if m < params.smWriteRepeat r.proto then .write else .verify
    rep := BitVec.ofNat 8 m
    bit := 0
    acc := 0 }

/-- SELECTOP of a write prepares the packet number 0. -/
theorem smSelectOp_write {s : State} (hop : s.sm.op = .write) :
    smSelectOp s = s.withSm (writeAttemptRegs s.sm 0) := by
  have hn := params_inRange.smWriteRepeat s.sm.proto
  simp only [smSelectOp, writeAttemptRegs, hop, if_pos (show 0 < params.smWriteRepeat s.sm.proto by omega), if_true]
  rfl

/-- A write packet's completion prepares the next packet; `SM_REP` does not wrap. -/
theorem smAfterPacket_writeAttemptRegs {r : SmRegs} {m : Nat} (t : Nat) (hlt : m < params.smWriteRepeat r.proto) :
    smAfterPacket params t (writeAttemptRegs r m) = writeAttemptRegs r (m + 1) := by
  have hn := params_inRange.smWriteRepeat r.proto
  have hrep : (BitVec.ofNat 8 m + 1).toNat = m + 1 := by
    have hmod : (BitVec.ofNat 8 m).toNat = m := by
      rw [BitVec.toNat_ofNat, Nat.mod_eq_of_lt (by omega)]
    bv_omega
  have hp : (writeAttemptRegs r m).phase = .write := if_pos hlt
  by_cases hlast : m + 1 = params.smWriteRepeat r.proto
  · rw [smAfterPacket_last_write hp (hrep.trans hlast)]
    simp only [writeAttemptRegs, if_neg (show ¬m + 1 < params.smWriteRepeat r.proto by omega), BitVec.ofNat_add]
    rfl
  · rw [smAfterPacket_earlier_write hp (fun h => hlast (hrep.symm.trans h))]
    simp only [writeAttemptRegs, if_pos hlt, if_pos (show m + 1 < params.smWriteRepeat r.proto by omega), BitVec.ofNat_add]
    rfl

/-- Every packet of a write carries the value (43_service_mode.md R233). -/
theorem smData_writeAttemptRegs {r : SmRegs} (hop : r.op = .write) (m : Nat) :
    smData (writeAttemptRegs r m) = .byte r.val := by
  by_cases hlt : m < params.smWriteRepeat r.proto
  · simp only [smData, writeAttemptRegs, if_pos hlt]
  · simp only [smData, writeAttemptRegs, if_neg hlt, hop, if_true]

/-- The state u of the run from s is the one before the packet number m of the attempt, with these offers to come. -/
def BeforePacket (s : State) (m : Nat) (ag : List AgentStep) (u : State) : Prop :=
  ∃ job last, u = { s with
    infl := none, driver := job, pktCnt := satInc^[m] s.pktCnt, s88Last := last, sm := writeAttemptRegs s.sm m
    agenda := ag, out := [] }

/-- A write about to start its attempt, with S88 polls off. -/
structure WriteReady (s : State) : Prop where
  mode : s.mode = .service
  target : s.target = true
  free : s.infl = none
  off : s.s88En = false
  op : s.sm.op = .write
  state : s.sm.state = .selectop

theorem BeforePacket.serviceTurn {s u : State} {m : Nat} {ag : List AgentStep} (h : BeforePacket s m ag u)
    (hs : WriteReady s) : ServiceTurn u := by
  obtain ⟨job, last, rfl⟩ := h
  exact serviceTurn_of_s88_off hs.mode hs.target rfl hs.off

/-- What the DRIVER is handed for the packet number m. -/
theorem BeforePacket.driver {s u : State} {m : Nat} {ag : List AgentStep} (h : BeforePacket s m (.psb :: ag) u)
    (hs : WriteReady s) :
    (nextState u).driver = some (.tx (params.encSm s.sm.proto
      (if m < params.smWriteRepeat s.sm.proto then .write else .verify) s.sm.cv (.byte s.sm.val)).bits
      ⟨s.sm.proto, .sm, s.spiSel⟩) := by
  have hturn := h.serviceTurn hs
  obtain ⟨job, last, rfl⟩ := h
  rw [nextState_transmit hturn rfl rfl, ← smData_writeAttemptRegs hs.op m]
  rfl

/-- The state after the packet number m. -/
theorem BeforePacket.packet_done {s u : State} {m : Nat} {ag : List AgentStep}
    (h : BeforePacket s m (.psb :: .driver (okDraw false) :: ag) u) (hs : WriteReady s) :
    after 2 u = { s with
      infl := none, driver := none, pktCnt := satInc^[m + 1] s.pktCnt, s88Last := s.now
      sm := smAfterPacket params s.now (writeAttemptRegs s.sm m), agenda := ag, out := [] } := by
  have hturn := h.serviceTurn hs
  obtain ⟨job, last, rfl⟩ := h
  rw [after_packet hturn rfl rfl, Function.iterate_succ_apply']

/-- The run of the attempt up to the packet number m: SELECTOP, then m write packets, with k more and the verify packet to
come. -/
theorem beforePacket_after {s : State} {tail : List AgentStep} (hs : WriteReady s) {m k : Nat}
    (hmk : m + k = params.smWriteRepeat s.sm.proto)
    (ha : s.agenda = .psb :: packetTurns (params.smWriteRepeat s.sm.proto + 1) ++ tail) :
    BeforePacket s m (packetTurns (k + 1) ++ tail) (after (2 * m + 1) s) := by
  induction m generalizing k with
  | zero =>
    obtain rfl : k = params.smWriteRepeat s.sm.proto := (Nat.zero_add k).symm.trans hmk
    have hturn := serviceTurn_of_s88_off hs.mode hs.target hs.free hs.off
    have hsel := (nextState_psb ha (hturn.psbRule_eq.trans (sequencerRule_selectop hs.state))).trans
      (smSelectOp_write (by exact hs.op))
    refine ⟨s.driver, s.s88Last, ?_⟩
    rw [← hs.free]
    exact hsel
  | succ m ih =>
    have hbefore := ih (k := k + 1) (by omega)
    have hrun : after (2 * (m + 1) + 1) s = after 2 (after (2 * m + 1) s) := after_add (2 * m + 1) 2 s
    rw [hrun, hbefore.packet_done hs, smAfterPacket_writeAttemptRegs _ (by omega)]
    exact ⟨none, s.now, rfl⟩

/-! ### The whole attempt -/

theorem satInc_iterate_toNat (c : BitVec 16) (m : Nat) : (satInc^[m] c).toNat = min (c.toNat + m) 65535 := by
  induction m with
  | zero =>
    have := c.isLt
    rw [Function.iterate_zero_apply]
    omega
  | succ m ih =>
    rw [Function.iterate_succ_apply', satInc_toNat, ih]
    omega

/-- The offers of an attempt begin with SELECTOP and the packets. -/
theorem writeAttempt_append (n delay window : Nat) (rest : List AgentStep) :
    writeAttempt n delay window ++ rest = .psb :: packetTurns (n + 1) ++
      (.clock delay :: .psb :: .clock window :: .driver (okDraw true) :: .psb :: rest) :=
  List.append_assoc _ _ _

/-- The state at the end of the attempt (43_service_mode.md R235, R241). -/
theorem after_writeAttempt {s : State} {rest : List AgentStep} (hs : WriteReady s)
    (ha : s.agenda = writeAttempt (params.smWriteRepeat s.sm.proto) (params.smAckDelayUs s.sm.proto)
      (params.smAckWindowUs s.sm.proto) ++ rest) :
    after (2 * params.smWriteRepeat s.sm.proto + 8) s =
      emit params (.smResult s.sm.proto .ok .write s.sm.cv s.sm.val) { s with
        sm := SmRegs.idle s.sm.proto, infl := none, driver := none
        now := s.now + params.smAckDelayUs s.sm.proto + params.smAckWindowUs s.sm.proto
        pktCnt := satInc^[params.smWriteRepeat s.sm.proto + 1] s.pktCnt, s88Last := s.now, agenda := rest, out := [] } := by
  have hverify := beforePacket_after hs (Nat.add_zero _) (ha.trans (writeAttempt_append _ _ _ _))
  have hphase : (writeAttemptRegs s.sm (params.smWriteRepeat s.sm.proto)).phase = .verify := if_neg (Nat.lt_irrefl _)
  have hsent := hverify.packet_done hs
  rw [smAfterPacket_of_ne_write (by rw [hphase]; decide)] at hsent
  have hrun : after (2 * params.smWriteRepeat s.sm.proto + 8) s =
      after 5 (after 2 (after (2 * params.smWriteRepeat s.sm.proto + 1) s)) := by
    rw [← after_add, ← after_add]
  rw [hrun, hsent]
  refine (after_acknowledged_verify (ag := rest) (by exact hs.mode) (by exact hs.target) rfl (by exact hs.off) rfl hphase rfl
    rfl).trans ?_
  simp only [smValue, writeAttemptRegs, hs.op, if_true]

/-- Settles O47: the packets by `beforePacket_after`, the end by `after_writeAttempt`. -/
theorem acknowledgedWriteEndsOk : Obligations.AcknowledgedWriteEndsOk := by
  intro s rest hm ht hi hoff hop hst ha
  have hs : WriteReady s := ⟨hm, ht, hi, hoff, hop, hst⟩
  have ha' := ha.trans (writeAttempt_append _ _ _ _)
  refine ⟨fun m hlt => ?_, ?_, _, after_writeAttempt hs ha, rfl, rfl, rfl, satInc_iterate_toNat _ _, ?_⟩
  · obtain ⟨k, hk⟩ := Nat.exists_eq_add_of_le hlt.le
    have hdriver := (beforePacket_after hs hk.symm ha').driver hs
    rw [if_pos hlt] at hdriver
    rw [after_succ, hdriver]
  · have hdriver := (beforePacket_after hs (Nat.add_zero _) ha').driver hs
    rw [if_neg (Nat.lt_irrefl _)] at hdriver
    rw [after_succ, hdriver]
  · rw [← hi]
    rfl

end Sys2Proof.Machine

/-! ## The register commands (44_config_status.md R271, R275, R276) -/

namespace Sys2Proof.Machine

/-! ### CFGWR -/

/-- CFGWR is rejected with the reason of checks 2 and 3. -/
theorem commandRule_cfgwr_preCheck_error {P : Params} {z : BitVec 16} {r : BitVec 4} {z2 : BitVec 8} {v : BitVec 32}
    {s : State} {e : Reason} (h : preCheck (.cfgwr z r z2 v) s = .error e) :
    commandRule P (.cfgwr z r z2 v) s = .error e := by
  rw [commandRule, cfgwrRule, h, bind_error]

/-- CFGWR of CTRL outside HALTED: the reserved bits of the value decide. -/
theorem commandRule_cfgwr_ctrl {P : Params} {s : State} (v : BitVec 32) (hm : s.mode ≠ .halted) :
    commandRule P (.cfgwr 0 0 0 v) s =
      if v &&& ctrlReservedMask = 0 then .ok (s.withCtrl v) else .error .reservedNonzero := by
  have hreg : (0 : BitVec 4).toNat ≤ 1 := Nat.zero_le 1
  rw [commandRule, cfgwrRule, preCheck_of_not_halted hm rfl, bind_ok, decide_eq_true hreg, require_true, bind_ok]
  by_cases hv : v &&& ctrlReservedMask = 0
  · rw [decide_eq_true fun _ => hv, if_pos hv]
    rfl
  · rw [decide_eq_false fun h => hv (h rfl), if_neg hv]
    rfl

/-- CFGWR of S88_MAXINT outside HALTED: every value is taken. -/
theorem commandRule_cfgwr_maxint {P : Params} {s : State} (v : BitVec 32) (hm : s.mode ≠ .halted) :
    commandRule P (.cfgwr 0 1 0 v) s = .ok (s.withMaxint v) := by
  rw [commandRule, cfgwrRule, preCheck_of_not_halted hm rfl, bind_ok]
  rfl

/-- Only registers 0 and 1 are writable (10_state.md R39). -/
theorem commandRule_cfgwr_badReg {P : Params} {s : State} {r : BitVec 4} (v : BitVec 32) (hm : s.mode ≠ .halted)
    (hr : 2 ≤ r.toNat) : commandRule P (.cfgwr 0 r 0 v) s = .error .badReg := by
  rw [commandRule, cfgwrRule, preCheck_of_not_halted hm rfl, bind_ok, decide_eq_false (Nat.not_le.2 hr), require_false,
    bind_error]

/-- Settles O14: each clause is one check of CFGWR, or its write when none fails. -/
theorem cfgwrWritesTheRegister : Obligations.CfgwrWritesTheRegister := by
  refine ⟨fun s v hm hv => exec_of_ok ?_, fun s v hm => exec_of_ok (commandRule_cfgwr_maxint v hm),
    fun s v hm hv => exec_of_error ?_, fun s r v hm hr => exec_of_error (commandRule_cfgwr_badReg v hm hr),
    fun s z r z2 v hm hz => exec_of_error (commandRule_cfgwr_preCheck_error (preCheck_eq_error.2 (.inr ⟨.inl hm, ?_, rfl⟩))),
    fun s z r z2 v hm => exec_of_error (commandRule_cfgwr_preCheck_error (preCheck_eq_error.2 (.inl ⟨hm, rfl, rfl⟩)))⟩
  · rw [commandRule_cfgwr_ctrl v hm]
    exact if_pos hv
  · rw [commandRule_cfgwr_ctrl v hm]
    exact if_neg hv
  · simpa [zeroFieldsClear, imp_iff_not_or] using hz

/-! ### RDREG -/

theorem nowLo_toNat (t : Nat) : (nowLo t).toNat = t % 2 ^ 32 := BitVec.toNat_ofNat t 32

theorem nowHi_toNat (t : Nat) : (nowHi t).toNat = t / 2 ^ 32 % 2 ^ 32 := by
  rw [nowHi, BitVec.toNat_ofNat, Nat.shiftRight_eq_div_pow]

/-- RDREG is exempt from HALTED (60_exceptions.md R322). -/
theorem preCheck_rdreg (r : BitVec 4) (s : State) : preCheck (.rdreg 0 r 0 0) s = .ok () :=
  preCheck_eq_ok.2 ⟨.inr rfl, rfl⟩

/-- The event of an accepted RDREG, in every mode (44_config_status.md R275). -/
theorem commandRule_rdreg_of_value {P : Params} {s : State} {r : BitVec 4} {v : BitVec 32}
    (hv : registerValue s r = some v) : commandRule P (.rdreg 0 r 0 0) s = .ok (emit P (.reg r v) s) := by
  simp only [commandRule, rdregRule, preCheck_rdreg, bind_ok, hv, pure_ok]

theorem commandRule_rdreg_badReg {P : Params} {s : State} {r : BitVec 4} (hv : registerValue s r = none) :
    commandRule P (.rdreg 0 r 0 0) s = .error .badReg := by
  simp only [commandRule, rdregRule, preCheck_rdreg, bind_ok, hv]

/-- The value of each readable register, by its index (44_config_status.md R276). -/
theorem value_of_registerValue {s : State} {r : BitVec 4} {v : BitVec 32} (hv : registerValue s r = some v) :
    (r = 0 → v = s.ctrl &&& 0x0000FF3F) ∧ (r = 1 → v = s.s88Maxint) ∧ (r = 2 → v = s.statusWord) ∧
    (r = 3 → v.toNat = s.pktCnt.toNat) ∧ (r = 4 → v.toNat = s.now % 2 ^ 32) ∧
    (r = 5 → v.toNat = s.now / 2 ^ 32 % 2 ^ 32) := by
  refine ⟨?_, ?_, ?_, ?_, ?_, ?_⟩ <;> rintro rfl <;> obtain rfl := Option.some.inj hv
  · rfl
  · rfl
  · rfl
  · exact BitVec.toNat_setWidth_of_le (by decide)
  · exact nowLo_toNat s.now
  · exact nowHi_toNat s.now

/-- Settles O15: the indexes up to 5 have a value, which RDREG queues, and the others have none. -/
theorem rdregReportsTheRegister : Obligations.RdregReportsTheRegister := by
  refine ⟨fun s r hr => ?_, fun s r hr => exec_of_error (commandRule_rdreg_badReg (registerValue_eq_none_iff.2 hr))⟩
  have hsome : registerValue s r ≠ none := fun hnone => Nat.not_lt.2 hr (registerValue_eq_none_iff.1 hnone)
  obtain ⟨v, hv⟩ := Option.ne_none_iff_exists'.1 hsome
  exact ⟨v, exec_of_ok (commandRule_rdreg_of_value hv), value_of_registerValue hv⟩

end Sys2Proof.Machine

/-! ## The S88 slot (45_s88_mfx.md R290 to R295) -/

namespace Sys2Proof.Machine

/-! ### When a poll is due, and its start -/

theorem s88CountTrigger_iff {P : Params} {s : State} :
    s88CountTrigger P s = true ↔ 0 < P.s88Npkt ∧ P.s88Npkt ≤ s.pktCnt.toNat := decide_eq_true_iff

theorem s88TimeTrigger_iff {s : State} {t : Nat} :
    s88TimeTrigger s t = true ↔ 0 < s.s88Maxint.toNat ∧ s.s88Last + s.s88Maxint.toNat ≤ t := decide_eq_true_iff

/-- Settles O48, by the two triggers. -/
theorem s88IsDueByCountOrByIdleTime : Obligations.S88IsDueByCountOrByIdleTime := by
  intro P s t
  rw [s88Due, State.s88En, Bool.and_eq_true, Bool.or_eq_true, s88CountTrigger_iff, s88TimeTrigger_iff]

/-- Settles O49: a due poll is the PSB's rule, whatever slot is eligible and wherever the sequencer stands. -/
theorem s88StartIsGrantedFirst : Obligations.S88StartIsGrantedFirst := fun _ hi hm hsw hst hdue =>
  step_psb_of_rule (psbRuleAt_s88Start hi hm hsw hdue hst)

/-! ### The bits that flipped -/

/-- The indexes of the chain at which two frames differ, from bit 0 up (45_s88_mfx.md R294, R295). -/
def flippedBits (P : Params) (prev cur : S88Vector) : List Nat :=
  (List.range P.s88Bits).filter (fun i => cur.getLsbD i != prev.getLsbD i)

theorem flippedBits_pairwise_lt (P : Params) (prev cur : S88Vector) : (flippedBits P prev cur).Pairwise (· < ·) :=
  List.pairwise_lt_range.filter _

theorem mem_flippedBits {P : Params} {prev cur : S88Vector} {i : Nat} :
    i ∈ flippedBits P prev cur ↔ i < P.s88Bits ∧ cur.getLsbD i ≠ prev.getLsbD i := by
  rw [flippedBits, List.mem_filter, List.mem_range, bne_iff_ne]

/-- A vector of the chain has no bit beyond it. -/
theorem getLsbD_of_frame {n i : Nat} {v : S88Vector} (hv : v.toNat < 2 ^ n) (hi : n ≤ i) : v.getLsbD i = false :=
  Nat.testBit_lt_two_pow (hv.trans_le (Nat.pow_le_pow_right Nat.two_pos hi))

/-- Two frames of the chain without a flipped bit are equal: beyond the chain both are zero. -/
theorem flippedBits_eq_nil_iff {P : Params} {prev cur : S88Vector} (hp : prev.toNat < 2 ^ P.s88Bits)
    (hc : cur.toNat < 2 ^ P.s88Bits) : flippedBits P prev cur = [] ↔ cur = prev := by
  refine ⟨fun hnil => BitVec.eq_of_getLsbD_eq fun i _ => ?_, ?_⟩
  · obtain hi | hi := Nat.lt_or_ge i P.s88Bits
    · have hmem : i ∉ flippedBits P prev cur := hnil ▸ List.not_mem_nil
      exact Decidable.byContradiction fun hne => hmem (mem_flippedBits.2 ⟨hi, hne⟩)
    · rw [getLsbD_of_frame hc hi, getLsbD_of_frame hp hi]
  · rintro rfl
    exact List.eq_nil_iff_forall_not_mem.2 fun i hi => (mem_flippedBits.1 hi).2 rfl

/-- A drawn vector of the chain's width is taken whole (60_exceptions.md Table R334). -/
theorem s88Frame_of_lt {P : Params} {v : S88Vector} (hv : v.toNat < 2 ^ P.s88Bits) : s88Frame P v = v := by
  rw [s88Frame, Nat.mod_eq_of_lt hv, BitVec.ofNat_toNat, BitVec.setWidth_eq]

/-! ### The events of a poll, and its trigger -/

theorem s88Events_eq_map (P : Params) (prev cur : S88Vector) :
    s88Events P prev cur = (flippedBits P prev cur).map (fun i => .s88 (BitVec.ofNat 16 i) (cur.getLsbD i)) := rfl

theorem emitAll_map {α : Type} (P : Params) (f : α → Event) (l : List α) (s : State) :
    emitAll P (l.map f) s = l.foldl (fun u i => emit P (f i) u) s := by
  induction l generalizing s with
  | nil => rfl
  | cons i l ih => exact ih (emit P (f i) s)

/-- An event queues alike before and after a label is shown. -/
theorem trig_emitAll (P : Params) (c : TxClass) (es : List Event) (s : State) :
    trig c (emitAll P es s) = emitAll P es (trig c s) := by
  induction es generalizing s with
  | nil => rfl
  | cons e es ih =>
    have hone : trig c (emit P e s) = emit P e (trig c s) := by rw [trig_eq, trig_eq]; rfl
    rw [emitAll, ih, hone, emitAll]

/-! ### The completion of a poll -/

/-- A poll may complete from its start on (60_exceptions.md R331). -/
theorem driverStep_s88 {P : Params} {d : Draw} {s : State} {t : Nat} (h : s.infl = some (.s88 t)) (ht : t ≤ s.now) :
    driverStep P d s = s88Done P d.vector d.status s := by
  have hen : driverEnabled P s d = true := by simp [driverEnabled, h, ht]
  rw [driverStep, if_pos hen, complete, h]

/-- S88_DONE with OK: the frame moves on, and the events and the trigger report the flipped bits (45_s88_mfx.md R294,
R295). -/
theorem s88Done_ok {P : Params} {v : S88Vector} {s : State} (hv : v.toNat < 2 ^ P.s88Bits)
    (hcur : s.s88Cur.toNat < 2 ^ P.s88Bits) :
    s88Done P v .ok s =
      (flippedBits P s.s88Cur v).foldl (fun u i => emit P (.s88 (BitVec.ofNat 16 i) (v.getLsbD i)) u)
        { s with
          infl := none, driver := none, pktCnt := 0, s88Last := s.now, s88Prev := s.s88Cur, s88Cur := v
          out := if flippedBits P s.s88Cur v ≠ [] ∧ s.trigEnabled .s88 = true then s.out ++ [.trig .s88] else s.out } := by
  rw [← emitAll_map, ← s88Events_eq_map, s88Done, s88Frame_of_lt hv]
  by_cases hsame : v = s.s88Cur
  · have hnil := (flippedBits_eq_nil_iff hcur hv).2 hsame
    rw [if_pos hsame, if_neg fun h => h.1 hnil]
    rfl
  · have hflip : flippedBits P s.s88Cur v ≠ [] := mt (flippedBits_eq_nil_iff hcur hv).1 hsame
    rw [if_neg hsame, trig_emitAll, trig_eq]
    simp only [and_iff_right hflip]
    rfl

/-- Settles O50: the list is that of the flipped bits, and S88_DONE reports them. -/
theorem s88DoneReportsEachFlippedBit : Obligations.S88DoneReportsEachFlippedBit := by
  intro s d t0 hinfl ht hok hv hcur
  refine ⟨flippedBits params s.s88Cur d.vector, flippedBits_pairwise_lt _ _ _, fun _ => mem_flippedBits, ?_⟩
  rw [step_offering, agentStep, driverStep_s88 (s := { s with out := [] }) hinfl ht, hok,
    s88Done_ok (s := { s with out := [] }) hv hcur]
  rfl

/-- Settles O51: the completion is S88_DONE with TIMING_MISS, which leaves the frame. -/
theorem s88MissDiscardsTheFrame : Obligations.S88MissDiscardsTheFrame := by
  intro s d t0 hinfl ht hmiss
  rw [step_offering, agentStep, driverStep_s88 (s := { s with out := [] }) hinfl ht, hmiss]
  rfl

end Sys2Proof.Machine

/-! ## Events, rejection and the halt (60_exceptions.md R311, R313, R321 to R323, R326, R327) -/

namespace Sys2Proof.Machine

/-! ### The event queue -/

/-- A queue at its capacity has no room (60_exceptions.md R326). -/
theorem hasRoom_of_full {P : Params} {d n : Nat} (hd : P.evqDepth = some d) (h : d ≤ n) : hasRoom P n = false :=
  Bool.eq_false_iff.2 fun hroom => Nat.not_lt.2 h (hasRoom_iff.1 hroom d hd)

/-- The word of a rejection: the reason, and the upper 20 bits of the command (60_exceptions.md R313). -/
theorem invalid_word_toNat (r : Reason) (w : Word) :
    (Event.invalid r (field w 44 20)).word.toNat = 2 ^ 60 + r.code.toNat * 2 ^ 56 + w.toNat / 2 ^ 44 * 2 ^ 36 := by
  have hw := w.isLt
  rw [eventWordsHaveTheirFormats.1, field_toNat]
  omega

/-- Settles O18: a rejection is the emission of its event. -/
theorem rejectionOnlyReports : Obligations.RejectionOnlyReports := fun _ r w _ =>
  ⟨_, invalid_word_toNat r w, fun h => emit_of_room _ (hasRoom_iff.2 h), fun _ hd h => emit_of_full _ (hasRoom_of_full hd h)⟩

theorem popStep_of_cons {s : State} {w : Word} {rest : List Word} (h : s.evq = w :: rest) :
    popStep s = { s with evq := rest, out := s.out ++ [.popped w] } := by
  rw [popStep, h]
  rfl

theorem popStep_of_nil {s : State} (h : s.evq = []) : popStep s = passedOver s := by
  rw [popStep, h]

/-- Settles O20: emission by the room there is, POP by the two forms of the queue. -/
theorem eventQueueIsFirstInFirstOut : Obligations.EventQueueIsFirstInFirstOut := by
  refine ⟨fun P e s h => emit_of_room e (hasRoom_iff.2 h), fun P e s d hd h => emit_of_full e (hasRoom_of_full hd h),
    fun s w rest h => ?_, fun s h => ?_⟩
  · rw [step_offering, agentStep, popStep_of_cons (s := { s with out := [] }) h]
    rfl
  · rw [step_offering, agentStep, popStep_of_nil (s := { s with out := [] }) h]
    rfl

/-! ### A completion with status FAULT -/

/-- What a completion does to the transaction, the timers and the counters, whatever its status (41_scheduler.md R160,
43_service_mode.md R234, R237, 45_s88_mfx.md R294). -/
def completionTimers : InFlight → State → State
  | .cmd key _ gap pause _, s => schedTimers key gap pause s
  | .smpkt _, s => s.finish.countPacket
  | .ack _, s => s.finish
  | .s88 _, s => s.finish.countPoll

/-- A completion with status FAULT is the timers' part, then the halt (60_exceptions.md R321). -/
theorem complete_fault {P : Params} {d : Draw} {s : State} {f : InFlight} (h : s.infl = some f) (hd : d.status = .fault) :
    complete P d s = halt P (flightClass f) (completionTimers f s) := by
  rw [complete, h, hd]
  cases f with
  | cmd | smpkt | ack | s88 => rfl

/-- From its due time on, any transaction may complete with a status other than TIMING_MISS, which a sample does not have
(60_exceptions.md R331, Table R334). -/
theorem driverEnabled_of_due {s : State} {d : Draw} {f : InFlight} (h : s.infl = some f) (hdue : dueTime s f ≤ s.now)
    (hd : d.status ≠ .timingMiss) : driverEnabled params s d = true := by
  rw [driverEnabled, h]
  cases f with
  | ack t => exact (Bool.and_eq_true _ _).mpr ⟨decide_eq_true hdue, decide_eq_true hd⟩
  | cmd | smpkt | s88 => exact decide_eq_true hdue

theorem driverStep_fault {s : State} {d : Draw} {f : InFlight} (h : s.infl = some f) (hdue : dueTime s f ≤ s.now)
    (hd : d.status = .fault) : driverStep params d s = halt params (flightClass f) (completionTimers f s) := by
  have hne : d.status ≠ .timingMiss := by rw [hd]; decide
  rw [driverStep, if_pos (driverEnabled_of_due h hdue hne), complete_fault h hd]

/-- The timers' part of a completion writes the slots, the pauses and the counters, and ends the transaction. -/
theorem completionTimers_frame (f : InFlight) (s : State) :
    ∃ a p c l, completionTimers f s =
      { s with infl := none, driver := none, arena := a, pauseUntil := p, pktCnt := c, s88Last := l } := by
  cases f with
  | cmd | smpkt | ack | s88 => exact ⟨_, _, _, _, rfl⟩

/-- Of a slot it writes `eligible_at` only (41_scheduler.md R161). -/
theorem completionTimers_slot (f : InFlight) (s : State) (k : SlotKey) :
    ∃ e, (completionTimers f s).slot k = { s.slot k with eligibleAt := e } := by
  cases f with
  | cmd key w gap pause t =>
    rw [completionTimers, schedTimers_slot]
    by_cases hk : k = key
    · exact ⟨s.now + gap, by rw [if_pos hk, hk]⟩
    · exact ⟨(s.slot k).eligibleAt, if_neg hk⟩
  | smpkt | ack | s88 => exact ⟨(s.slot k).eligibleAt, rfl⟩

/-- Settles O21: the state is the halt after the timers' part, whose timers are read off by the transaction's kind. -/
theorem faultHalts : Obligations.FaultHalts := by
  intro s d f hinfl hdue hfault
  obtain ⟨a, p, c, l, hframe⟩ := completionTimers_frame f { s with out := [] }
  refine ⟨halt params (flightClass f) (completionTimers f { s with out := [] }), ?_, ?_, ?_, fun k => ?_, ?_, ?_⟩
  · rw [step_offering, agentStep, driverStep_fault (s := { s with out := [] }) hinfl hdue hfault]
  · rw [hframe]; rfl
  · rw [hframe]; rfl
  · obtain ⟨e, hslot⟩ := completionTimers_slot f { s with out := [] } k
    rw [halt_slot, hslot]
    exact ⟨rfl, rfl, rfl⟩
  · cases f with
    | cmd key w gap pause t =>
      have hslot := schedTimers_slot key gap pause { s with out := [] }
      have hpause := s.pauseUntil.get_raise key.proto
      refine ⟨?_, fun k hk => ?_, (hpause key.proto _).trans (if_pos rfl), fun q hq => (hpause q _).trans (if_neg hq),
        satInc_toNat s.pktCnt, rfl⟩
      · rw [halt_slot, completionTimers, hslot, if_pos rfl]
      · rw [halt_slot, completionTimers, hslot, if_neg hk]
        rfl
    | smpkt t => exact ⟨rfl, rfl, satInc_toNat s.pktCnt, rfl⟩
    | ack t => exact ⟨rfl, rfl, rfl, rfl⟩
    | s88 t => exact ⟨rfl, rfl, rfl, rfl⟩
  · rw [hframe]; rfl

/-! ### HALTED -/

/-- In HALTED no step of the PSB is enabled (60_exceptions.md R322). -/
theorem psbStep_of_halted {P : Params} {s : State} (hm : s.mode = .halted) : psbStep P s = passedOver s :=
  psbStep_of_none (psbRuleAt_halted hm s.now)

/-- With nothing in flight the DRIVER has nothing to complete (60_exceptions.md R331). -/
theorem driverStep_of_free {P : Params} {d : Draw} {s : State} (hi : s.infl = none) :
    driverStep P d s = passedOver s :=
  (driverStep_cases P d s).resolve_right fun ⟨_, hf, _⟩ => nomatch hi.symm.trans hf

/-- In HALTED the CLOCK is free: no step of the PSB is enabled at any time to come (60_exceptions.md R322). -/
theorem clockEnabled_of_halted {P : Params} {s : State} {dt : Nat} (hm : s.mode = .halted) (hpos : 0 < dt) :
    clockEnabled P dt s = true := by
  by_cases hi : s.infl = none
  · exact (clockEnabled_iff hpos hi).2 fun u _ _ => psbRuleAt_halted hm u
  · exact clockEnabled_of_infl hpos hi

/-- The commands HALTED accepts are those of opcodes 0 and 10, NOP and RDREG (60_exceptions.md R322). -/
theorem exemptFromHalt_iff_opcode (i : Instr) :
    exemptFromHalt i = true ↔ (opcodeOf i).toNat = 0 ∨ (opcodeOf i).toNat = 10 := by
  cases i <;> simp [exemptFromHalt, opcodeOf]

/-- Every command's rule begins with checks 2 and 3 (40_registry_commands.md R132). -/
theorem commandRule_eq_preCheck_bind (P : Params) (i : Instr) (s : State) :
    ∃ f, commandRule P i s = preCheck i s >>= f := by
  cases i <;> exact ⟨_, rfl⟩

theorem commandRule_of_halted {P : Params} {i : Instr} {s : State} (hm : s.mode = .halted)
    (hi : exemptFromHalt i = false) : commandRule P i s = .error .halted := by
  obtain ⟨f, hf⟩ := commandRule_eq_preCheck_bind P i s
  rw [hf, preCheck_eq_error.2 (.inl ⟨hm, hi, rfl⟩), bind_error]

/-- Settles O22: one lemma for each agent. -/
theorem haltedAcceptsOnlyNopAndRdreg : Obligations.HaltedAcceptsOnlyNopAndRdreg := by
  refine ⟨fun s hm => ?_, fun s d _ hi => ?_, fun s dt hm hpos => (step_clock_iff hpos).2 (clockEnabled_of_halted hm hpos),
    fun s i hm h0 h10 => exec_of_error (commandRule_of_halted hm ?_)⟩
  · rw [step_offering, agentStep, psbStep_of_halted (s := { s with out := [] }) hm]
    rfl
  · rw [step_offering, agentStep, driverStep_of_free (s := { s with out := [] }) hi]
    rfl
  · exact Bool.eq_false_iff.2 fun hex => ((exemptFromHalt_iff_opcode i).1 hex).elim h0 h10

/-- In HALTED a word the HOST presents writes the event queue only: it is rejected, or NOP or RDREG (60_exceptions.md
R322). -/
theorem hostStep_of_halted {P : Params} {w : Word} {s : State} (hm : s.mode = .halted) :
    ∃ q o, hostStep P w s = { s with evq := q, evovf := o } := by
  obtain ⟨e, h⟩ | ⟨i, h⟩ := hostStep_cases P w s
  · exact ⟨_, _, h⟩
  · obtain hs | ⟨r, v, _, hs⟩ | ⟨hne, _⟩ := commandRule_cases h
    · exact ⟨_, _, hs⟩
    · exact ⟨_, _, hs⟩
    · exact absurd hm hne

/-- In HALTED with nothing in flight, an agent's step but reset writes NOW, the event queue and the labels only
(60_exceptions.md R322, R323). -/
theorem agentStep_of_halted {P : Params} {a : AgentStep} {s : State} (hm : s.mode = .halted) (hi : s.infl = none)
    (hr : a ≠ .reset) :
    ∃ n q o out, agentStep P a s = { s with now := n, evq := q, evovf := o, out := out } := by
  cases a with
  | host w =>
    obtain ⟨q, o, h⟩ := hostStep_of_halted (P := P) (w := w) hm
    exact ⟨_, _, _, _, h⟩
  | pop =>
    obtain ⟨q, out, h⟩ := popStep_frame s
    exact ⟨_, _, _, _, h⟩
  | psb => exact ⟨_, _, _, _, psbStep_of_halted hm⟩
  | driver d => exact ⟨_, _, _, _, driverStep_of_free hi⟩
  | clock dt =>
    obtain ⟨n, out, _, h⟩ := clockStep_frame P dt s
    exact ⟨_, _, _, _, h⟩
  | reset => exact absurd rfl hr

/-- Settles O23: the offer is taken, then the agent's step writes what HALTED lets it write. -/
theorem onlyResetLeavesHalted : Obligations.OnlyResetLeavesHalted := by
  intro s t hm hi hr hstep
  obtain rfl := step_eq_next_iff.1 hstep
  obtain ⟨n, q, o, out, h⟩ := agentStep_of_halted (P := params) (s := takeOffer s)
    ((takeOffer_mode s).trans hm) ((takeOffer_infl s).trans hi) hr
  obtain ⟨ag, m, htake⟩ := takeOffer_eq s
  rw [h, htake]

end Sys2Proof.Machine

/-! ## The invariant of the reachable states (70_reset_and_hazards.md R355, 10_state.md R25, R41)

What a slot and a session keep, then one rule for each operation on the state, then one lemma for each agent's step. -/

namespace Sys2Proof.Machine

/-! ### One slot -/

theorem slotOk_reset (P : Params) (now : Nat) (key : SlotKey) : SlotOk P now key (Slot.reset key.kind) :=
  ⟨fun _ => ⟨rfl, rfl⟩, nofun, Nat.zero_le _⟩

theorem SlotOk.later {P : Params} {now n : Nat} {key : SlotKey} {sl : Slot} (h : SlotOk P now key sl) (hle : now ≤ n) :
    SlotOk P n key sl := { h with bounded := h.bounded.trans (Nat.add_le_add_right hle _) }

theorem SlotOk.withEligibleAt {P : Params} {now e : Nat} {key : SlotKey} {sl : Slot} (h : SlotOk P now key sl)
    (he : e ≤ now + gapUs P key.proto) : SlotOk P now key { sl with eligibleAt := e } := { h with bounded := he }

/-- A slot may be marked clean, and a valid one dirty. -/
theorem SlotOk.withDirty {P : Params} {now : Nat} {key : SlotKey} {sl : Slot} (h : SlotOk P now key sl) {d : Bool}
    (hd : sl.valid = false → d = false) : SlotOk P now key { sl with dirty := d } :=
  { h with blank := fun hv => ⟨hd hv, (h.blank hv).2⟩ }

/-! ### The session -/

theorem sessionOk_idle (P : Params) (m : Mode) (p : Proto) : SessionOk P m (SmRegs.idle p) where
  idleIff := ⟨fun _ => rfl, fun _ => rfl⟩
  blank _ := rfl
  normalIdle _ := rfl
  cvLegal hop := absurd rfl hop
  repLegal := Nat.zero_le _
  repOpen := nofun
  retryLegal := Nat.zero_le _
  samplePhase := nofun

theorem SessionOk.halted {P : Params} {m : Mode} {r : SmRegs} (h : SessionOk P m r) : SessionOk P .halted r :=
  { h with normalIdle := nofun }

/-- In NORMAL there is no session, and its registers are blank (10_state.md R41). -/
theorem SessionOk.eq_idle {P : Params} {r : SmRegs} (h : SessionOk P .normal r) : r = SmRegs.idle r.proto :=
  h.blank (h.idleIff.1 (h.normalIdle rfl))

/-- A session that goes on: the operation, the CV and the protocol stay, and the registers of the attempt keep their bounds. -/
theorem SessionOk.move {P : Params} {m : Mode} {r : SmRegs} (h : SessionOk P m r) (hrun : r.state ≠ .idle)
    {st : SmState} {ph : SmPhase} {n acc y : BitVec 8} {b : BitVec 3} {t : Nat} (hst : st ≠ .idle)
    (hrep : n.toNat ≤ P.smWriteRepeat r.proto)
    (hopen : st = .transmit → ph = .write → n.toNat < P.smWriteRepeat r.proto)
    (hretry : y.toNat ≤ P.smRetryMax r.proto) (hsample : st = .sample → ph ≠ .write) :
    SessionOk P m { r with state := st, phase := ph, rep := n, bit := b, acc := acc, retry := y, deadline := t } :=
  have hop : r.op ≠ .none := fun hop => hrun (h.idleIff.2 hop)
  { idleIff := ⟨fun hidle => absurd hidle hst, fun hnone => absurd hnone hop⟩
    blank := fun hnone => absurd hnone hop
    normalIdle := fun hm => absurd (h.normalIdle hm) hrun
    cvLegal := h.cvLegal
    repLegal := hrep
    repOpen := hopen
    retryLegal := hretry
    samplePhase := hsample }

/-- The creation of a session over blank registers (43_service_mode.md R223, R224). -/
theorem SessionOk.create {P : Params} {r : SmRegs} (h : SessionOk P .service r) {op : SmOp} {cv : BitVec 16}
    (v : BitVec 8) (hop : op ≠ .none) (hcv : 1 ≤ cv.toNat ∧ cv.toNat ≤ P.cvMax r.proto) :
    SessionOk P .service { r with op := op, cv := cv, val := v, retry := 0, state := .selectop } where
  idleIff := ⟨nofun, fun hnone => absurd hnone hop⟩
  blank hnone := absurd hnone hop
  normalIdle := nofun
  cvLegal _ := hcv
  repLegal := h.repLegal
  repOpen := nofun
  retryLegal := Nat.zero_le _
  samplePhase := nofun

/-- A count below a bound of at most 255 goes up without wrapping. -/
theorem toNat_add_one_of_lt {c : BitVec 8} {n : Nat} (h : c.toNat < n) (hn : n ≤ 255) : (c + 1).toNat = c.toNat + 1 := by
  have hone : (1 : BitVec 8).toNat = 1 := rfl
  rw [BitVec.toNat_add, hone]
  omega

/-- The session after a packet: the last write packet leads to VERIFY, and an earlier one leaves room for the next
(43_service_mode.md R234). -/
theorem SessionOk.afterPacket {P : Params} (hP : P.InRange) {m : Mode} {r : SmRegs} (h : SessionOk P m r)
    (hst : r.state = .transmit) (t : Nat) : SessionOk P m (smAfterPacket P t r) := by
  have hrun : r.state ≠ .idle := by rw [hst]; nofun
  by_cases hp : r.phase = .write
  · have hlt := h.repOpen hst hp
    have hnext := toNat_add_one_of_lt hlt (hP.smWriteRepeat r.proto).2
    by_cases hlast : (r.rep + 1).toNat = P.smWriteRepeat r.proto
    · rw [smAfterPacket_last_write hp hlast]
      exact h.move hrun hrun hlast.le nofun h.retryLegal nofun
    · rw [smAfterPacket_earlier_write hp hlast]
      exact h.move hrun hrun (by omega) (fun _ _ => by omega) h.retryLegal h.samplePhase
  · rw [smAfterPacket_of_ne_write hp]
    exact h.move hrun nofun h.repLegal nofun h.retryLegal fun _ => hp

/-- The session after a sample, which is never taken in phase WRITE (43_service_mode.md R237, Table R229). -/
theorem SessionOk.afterAck {P : Params} {m : Mode} {r : SmRegs} (h : SessionOk P m r) (hst : r.state = .sample)
    (ack : Bool) : SessionOk P m (smAfterAck ack r) := by
  have hrun : r.state ≠ .idle := by rw [hst]; nofun
  cases hp : r.phase with
  | write => exact absurd hp (h.samplePhase hst)
  | bitv =>
    by_cases hb : r.bit.toNat < 7
    · rw [smAfterAck_earlier_bit hp hb]
      exact h.move hrun nofun h.repLegal (fun _ hw => nomatch hp.symm.trans hw) h.retryLegal nofun
    · rw [smAfterAck_last_bit hp (by have := r.bit.isLt; omega)]
      exact h.move hrun nofun h.repLegal nofun h.retryLegal nofun
  | verify =>
    rw [smAfterAck_verify hp]
    cases ack with
    | false | true => exact h.move hrun nofun h.repLegal nofun h.retryLegal nofun

/-! ### One rule for each operation on the state -/

/-- The fields the invariant does not read. -/
theorem inv_unread {P : Params} {s : State} (h : Inv P s) {p : PauseRegs} {tg : Bool} {tp : Proto} {c : BitVec 16}
    {x : BitVec 32} {o : Bool} {out : List OutLabel} {ag : List AgentStep} {n : Nat} :
    Inv P { s with pauseUntil := p, target := tg, targetProto := tp, pktCnt := c, s88Maxint := x, evovf := o, out := out,
                   agenda := ag, drawn := n } := { h with }

theorem inv_trig {P : Params} {s : State} (h : Inv P s) (c : TxClass) : Inv P (trig c s) := by
  rw [trig_eq]
  exact inv_unread h

theorem inv_emit {P : Params} {s : State} (h : Inv P s) (e : Event) : Inv P (emit P e s) :=
  { h with queue := emit_queue e h.queue }

theorem inv_emitAll {P : Params} {s : State} (h : Inv P s) (es : List Event) : Inv P (emitAll P es s) := by
  induction es generalizing s with
  | nil => exact h
  | cons e es ih => exact ih (inv_emit h e)

theorem Inv.flight_of_infl {P : Params} {s : State} {o : Option InFlight} (h : Inv P s) (hf : s.infl = o) :
    flightOk P s o := hf ▸ h.flight

/-- A slot write: only the packet of this key in flight asks anything of its `eligible_at`. -/
theorem inv_writeSlot {P : Params} {s : State} (h : Inv P s) {key : SlotKey} {sl : Slot} (hsl : SlotOk P s.now key sl)
    (hle : ∀ w gap pause t, s.infl = some (.cmd key w gap pause t) → sl.eligibleAt ≤ s.now) :
    Inv P (s.writeSlot key sl) where
  arena := Arena.wf_write _ _ _ h.arena
  slots k := by
    rw [State.slot_writeSlot]
    split
    next hk => exact hk ▸ hsl
    next => exact h.slots k
  session := h.session
  flight := by
    have hflight := h.flight
    rw [State.writeSlot_infl]
    cases hf : s.infl with
    | none => rwa [hf] at hflight
    | some f =>
      rw [hf] at hflight
      cases f with
      | cmd k w gap pause t =>
        obtain ⟨hm, hgap, helig, ht, hjob⟩ := hflight
        refine ⟨hm, hgap, ?_, ht, hjob⟩
        rw [State.slot_writeSlot]
        split
        next hk => exact hle w gap pause t (hk ▸ hf)
        next => exact helig
      | smpkt t | ack t | s88 t => exact hflight
  queue := h.queue
  ctrl := h.ctrl
  frameCur := h.frameCur
  framePrev := h.framePrev
  lastPast := h.lastPast

/-- The mode and the session may change together while nothing is in flight. -/
theorem inv_withModeSm {P : Params} {s : State} (h : Inv P s) (hi : s.infl = none) {m : Mode} {r : SmRegs}
    (hr : SessionOk P m r) : Inv P { s with mode := m, sm := r } :=
  { h with session := hr, flight := by rw [hi]; exact h.flight_of_infl hi }

theorem inv_withSm {P : Params} {s : State} (h : Inv P s) (hi : s.infl = none) {r : SmRegs}
    (hr : SessionOk P s.mode r) : Inv P (s.withSm r) := inv_withModeSm h hi hr

theorem inv_halt {P : Params} {s : State} (h : Inv P s) (hi : s.infl = none) (c : TxClass) : Inv P (halt P c s) :=
  inv_emit (inv_withModeSm h hi h.session.halted) _

theorem inv_begin {P : Params} {s : State} (h : Inv P s) {f : InFlight} {j : DriverJob}
    (hf : flightOk P (s.begin f j) (some f)) : Inv P (s.begin f j) := { h with flight := hf }

theorem inv_finish {P : Params} {s : State} (h : Inv P s) : Inv P s.finish := { h with flight := rfl }

theorem inv_countPacket {P : Params} {s : State} (h : Inv P s) : Inv P s.countPacket :=
  { h with lastPast := Nat.le_refl _ }

theorem inv_countPoll {P : Params} {s : State} (h : Inv P s) : Inv P s.countPoll :=
  { h with lastPast := Nat.le_refl _ }

theorem inv_withFrame {P : Params} {s : State} (h : Inv P s) {prev cur : S88Vector}
    (hprev : prev.toNat < 2 ^ P.s88Bits) (hcur : cur.toNat < 2 ^ P.s88Bits) : Inv P (s.withFrame prev cur) :=
  { h with framePrev := hprev, frameCur := hcur }

theorem inv_withCtrl {P : Params} {s : State} (h : Inv P s) {v : BitVec 32} (hv : v &&& ctrlReservedMask = 0) :
    Inv P (s.withCtrl v) := { h with ctrl := hv }

/-- Time may pass: every bound of the invariant is a time in the past, or the present plus a gap. -/
theorem inv_withNow {P : Params} {s : State} (h : Inv P s) {n : Nat} (hn : s.now ≤ n) : Inv P (s.withNow n) :=
  { h with
    slots := fun key => (h.slots key).later hn
    lastPast := h.lastPast.trans hn
    flight := by
      have hflight := h.flight
      rw [State.withNow_infl]
      cases hf : s.infl with
      | none => rwa [hf] at hflight
      | some f =>
        rw [hf] at hflight
        cases f with
        | cmd k w gap pause t =>
          obtain ⟨hm, hgap, helig, ht, hjob⟩ := hflight
          exact ⟨hm, hgap, helig.trans hn, ht.trans hn, hjob⟩
        | smpkt t | ack t | s88 t =>
          obtain ⟨hm, hst, ht, hjob⟩ := hflight
          exact ⟨hm, hst, ht.trans hn, hjob⟩ }

/-! ### The HOST's step -/

/-- SETGL and SETGA: the new slot is legal by the command's checks, and its `eligible_at` is the old one or NOW. -/
theorem inv_setSlot {P : Params} {s : State} (h : Inv P s) {key : SlotKey} {pl : Payload}
    (hv : addrValid P key = true) (hpl : payloadLegal P key pl) : Inv P (setSlot key pl s) := by
  have hbound := (h.slots key).bounded
  refine inv_writeSlot h ⟨nofun, fun _ => ⟨hv, hpl⟩, ?_⟩ fun w gap pause t hf => ?_
  · dsimp only
    split <;> omega
  · have hle := h.eligibleAt_le_now hf
    dsimp only
    split <;> omega

theorem inv_clearSlot {P : Params} {s : State} (h : Inv P s) (key : SlotKey) : Inv P (clearSlot key s) :=
  inv_writeSlot h ((slotOk_reset P s.now key).withEligibleAt (h.slots key).bounded) fun _ _ _ _ => h.eligibleAt_le_now

/-- SMWRITE and SMREAD: with no session yet, the transaction in flight can only be a poll, which goes on. -/
theorem inv_createSession {P : Params} {s : State} (h : Inv P s) {op : SmOp} {cv : BitVec 16} (v : BitVec 8)
    (hop : op ≠ .none) (hm : s.mode = .service) (hnone : s.sm.op = .none)
    (hcv : 1 ≤ cv.toNat ∧ cv.toNat ≤ P.cvMax s.sm.proto) : Inv P (createSession op cv v s) :=
  have hidle : s.sm.state = .idle := h.session.idleIff.2 hnone
  { h with
    session := by
      have hsession := h.session
      rw [hm] at hsession
      exact hm.symm ▸ hsession.create v hop hcv
    flight := by
      have hflight := h.flight
      show flightOk P (createSession op cv v s) s.infl
      cases hf : s.infl with
      | none => rwa [hf] at hflight
      | some f =>
        rw [hf] at hflight
        cases f with
        | cmd k w gap pause t =>
          obtain ⟨hnormal, _⟩ := hflight
          exact nomatch hm.symm.trans hnormal
        | smpkt t | ack t =>
          obtain ⟨_, hrun, _⟩ := hflight
          exact nomatch hidle.symm.trans hrun
        | s88 t =>
          obtain ⟨hmode, _, ht, hjob⟩ := hflight
          exact ⟨hmode, nofun, ht, hjob⟩ }

theorem inv_commandRule {P : Params} {s t : State} {i : Instr} (h : Inv P s) (hi : commandRule P i s = .ok t) :
    Inv P t := by
  obtain rfl | ⟨r, v, _, rfl⟩ | ⟨_, ⟨key, pl, hv, hpl, rfl⟩ | ⟨key, _, _, rfl⟩ | ⟨p, _, _, rfl⟩ | ⟨_, rfl⟩ |
    ⟨op, cv, v, hop, hm, _, hnone, hlo, hhi, rfl⟩ | ⟨v, hv, rfl⟩ | ⟨v, rfl⟩⟩ := commandRule_cases hi
  · exact h
  · exact inv_emit h _
  · exact inv_setSlot h hv hpl
  · exact inv_clearSlot h key
  · exact inv_unread h
  · exact inv_unread h
  · exact inv_createSession h v hop hm hnone ⟨hlo, hhi⟩
  · exact inv_withCtrl h hv
  · exact inv_unread h

theorem inv_hostStep {P : Params} {s : State} (h : Inv P s) (w : Word) : Inv P (hostStep P w s) := by
  obtain ⟨e, hs⟩ | ⟨i, hs⟩ := hostStep_cases P w s
  · exact hs ▸ inv_emit h e
  · exact inv_commandRule h hs

/-! ### POP, the CLOCK, reset -/

theorem inv_passedOver {P : Params} {s : State} (h : Inv P s) : Inv P (passedOver s) := inv_unread h

theorem inv_popStep {P : Params} {s : State} (h : Inv P s) : Inv P (popStep s) := by
  cases hq : s.evq with
  | nil => exact popStep_of_nil hq ▸ inv_passedOver h
  | cons w rest =>
    have hrest : Inv P { s with evq := rest } :=
      { h with queue := fun d hd => Nat.le_of_succ_le (by simpa [hq] using h.queue d hd) }
    rw [popStep_of_cons hq]
    exact inv_unread hrest

theorem inv_clockStep {P : Params} {s : State} (h : Inv P s) (dt : Nat) : Inv P (clockStep P dt s) := by
  obtain ⟨n, out, hn, hs⟩ := clockStep_frame P dt s
  rw [hs]
  exact inv_unread (inv_withNow h hn)

theorem inv_reset (P : Params) : Inv P State.reset where
  arena := reset_arena_wf
  slots key := slotOk_reset P 0 key
  session := sessionOk_idle P .normal .dcc
  flight := rfl
  queue _ _ := Nat.zero_le _
  ctrl := BitVec.zero_and
  frameCur := BitVec.toNat_zero.trans_lt (Nat.two_pow_pos _)
  framePrev := BitVec.toNat_zero.trans_lt (Nat.two_pow_pos _)
  lastPast := Nat.le_refl _

/-! ### The PSB's step -/

theorem inv_switchIn {P : Params} {s : State} (h : Inv P s) (hi : s.infl = none) (hm : s.mode = .normal) :
    Inv P (switchIn s) := by
  have hsession := h.session
  rw [hm] at hsession
  refine inv_withModeSm h hi ?_
  rw [hsession.eq_idle]
  exact sessionOk_idle P .service s.targetProto

theorem inv_switchOut {P : Params} {s : State} (h : Inv P s) (hi : s.infl = none) : Inv P (switchOut P s) := by
  have hidle := sessionOk_idle P .normal s.sm.proto
  by_cases hop : s.sm.op = .none
  · rw [switchOut_of_none hop]
    exact inv_withModeSm h hi hidle
  · rw [switchOut_of_session hop]
    exact inv_withModeSm (inv_emit h _) hi hidle

/-- A poll is granted neither in HALTED nor before a sample (45_s88_mfx.md R292). -/
theorem s88Allowed_conditions {s : State} (h : s88Allowed s = true) : s.mode ≠ .halted ∧ s.sm.state ≠ .sample := by
  unfold s88Allowed at h
  cases hm : s.mode <;> simp_all

theorem inv_s88Start {P : Params} {s : State} (h : Inv P s) (hallowed : s88Allowed s = true) : Inv P (s88Start s) :=
  have ⟨hm, hst⟩ := s88Allowed_conditions hallowed
  inv_begin h ⟨hm, hst, Nat.le_refl _, rfl⟩

/-- Every packet of the encoders has a legal length (42_encoder_mux.md R198). -/
theorem legalLength_bits {P : Params} (b : PacketBits P.pktMaxBits) : legalLength P b.bits := ⟨b.nonempty, b.bounded⟩

/-- SCHED_SELECT: the slot granted is eligible, so its `eligible_at` is past (41_scheduler.md R152, R157). -/
theorem inv_schedSelect {P : Params} {s : State} (h : Inv P s) (hi : s.infl = none) (hm : s.mode = .normal)
    {key : SlotKey} (helig : EligibleAt s s.now key) : Inv P (schedSelect P key s) := by
  have hwrite : Inv P (s.writeSlot key { s.slot key with dirty := false }) :=
    inv_writeSlot h ((h.slots key).withDirty fun _ => rfl) fun _ _ _ _ hf => nomatch hi.symm.trans hf
  have hlen := legalLength_bits (mux P s.mmCorr key (s.slot key).payload).toPacketBits
  refine inv_trig (inv_begin hwrite ?_) _
  refine ⟨hm, rfl, ?_, Nat.le_refl _, _, _, rfl, hlen, rfl, rfl⟩
  obtain ⟨_, hpast, _⟩ := helig
  rwa [State.begin_slot, State.slot_writeSlot, if_pos rfl]

theorem inv_smTransmit {P : Params} {s : State} (h : Inv P s) (hm : s.mode = .service) (hst : s.sm.state = .transmit) :
    Inv P (smTransmit P s) := by
  have hlen := legalLength_bits (muxSm P s.sm.proto s.sm.phase s.sm.cv (smData s.sm)).toPacketBits
  refine inv_trig (inv_begin h ?_) _
  exact ⟨hm, hst, Nat.le_refl _, _, _, rfl, hlen, rfl, rfl⟩

theorem inv_smSelectOp {P : Params} (hP : P.InRange) {s : State} (h : Inv P s) (hi : s.infl = none)
    (hst : s.sm.state = .selectop) : Inv P (smSelectOp s) :=
  inv_withSm h hi (h.session.move (by rw [hst]; nofun) nofun (Nat.zero_le _)
    (fun _ _ => (hP.smWriteRepeat s.sm.proto).1) h.session.retryLegal nofun)

theorem inv_smRetry {P : Params} (hP : P.InRange) {s : State} (h : Inv P s) (hi : s.infl = none)
    (hst : s.sm.state = .retry) : Inv P (smRetry P s) := by
  have hrun : s.sm.state ≠ .idle := by rw [hst]; nofun
  unfold smRetry
  split
  next hlt =>
    have hnext := toNat_add_one_of_lt hlt (hP.smRetryMax s.sm.proto)
    exact inv_withSm h hi (h.session.move hrun nofun h.session.repLegal nofun (by omega) nofun)
  next => exact inv_withSm h hi (h.session.move hrun nofun h.session.repLegal nofun h.session.retryLegal nofun)

theorem inv_destroySession {P : Params} {s : State} (h : Inv P s) (hi : s.infl = none) : Inv P s.destroySession :=
  inv_withSm h hi (sessionOk_idle P s.mode s.sm.proto)

theorem inv_sequencerRule {P : Params} (hP : P.InRange) {s : State} (h : Inv P s) (hi : s.infl = none)
    (hm : s.mode = .service) {r : PsbRule} (hr : sequencerRule s s.now = some r) : Inv P (runPsbRule P r s) := by
  obtain ⟨hst, rfl⟩ | ⟨hst, rfl⟩ | ⟨hst, _, rfl⟩ | ⟨hst, rfl⟩ | ⟨_, rfl⟩ | ⟨_, rfl⟩ := sequencerRule_cases hr
  · exact inv_smSelectOp hP h hi hst
  · exact inv_smTransmit h hm hst
  · exact inv_begin h ⟨hm, hst, Nat.le_refl _, rfl⟩
  · exact inv_smRetry hP h hi hst
  · exact inv_destroySession (inv_emit h _) hi
  · exact inv_destroySession (inv_emit h _) hi

theorem inv_psbStep {P : Params} (hP : P.InRange) {s : State} (h : Inv P s) : Inv P (psbStep P s) := by
  cases hr : psbRule P s with
  | none => exact psbStep_of_none hr ▸ inv_passedOver h
  | some r =>
    rw [psbStep_of_rule hr]
    obtain ⟨hi, ⟨hm, _, rfl⟩ | ⟨_, _, rfl⟩ | ⟨_, hallowed, rfl⟩ | ⟨hm, _, _, key, _, rfl⟩ | ⟨hm, _, _, hseq⟩⟩ :=
      psbRuleAt_cases hr
    · exact inv_switchIn h hi hm
    · exact inv_switchOut h hi
    · exact inv_s88Start h hallowed
    · exact inv_schedSelect h hi hm (schedSelect_conditions hr).1
    · exact inv_sequencerRule hP h hi hm hseq

/-! ### The DRIVER's completion -/

theorem completionTimers_infl (f : InFlight) (s : State) : (completionTimers f s).infl = none := by
  obtain ⟨_, _, _, _, hs⟩ := completionTimers_frame f s
  rw [hs]

/-- The timers' part of a completion: the new `eligible_at` is NOW plus the protocol's gap (41_scheduler.md R161). -/
theorem inv_completionTimers {P : Params} {s : State} (h : Inv P s) {f : InFlight} (hf : s.infl = some f) :
    Inv P (completionTimers f s) := by
  cases f with
  | cmd key w gap pause t =>
    have hgap : gap = gapUs P key.proto := h.flightGapOk _ _ _ _ _ hf
    have hslot : SlotOk P s.now key { s.slot key with eligibleAt := s.now + gap } :=
      (h.slots key).withEligibleAt (by rw [hgap])
    exact inv_countPacket (inv_unread (inv_writeSlot (inv_finish h) hslot nofun))
  | smpkt t => exact inv_countPacket (inv_finish h)
  | ack t => exact inv_finish h
  | s88 t => exact inv_countPoll (inv_finish h)

theorem inv_restoreDirty {P : Params} {s : State} (h : Inv P s) (hi : s.infl = none) (key : SlotKey) (w : Bool) :
    Inv P (restoreDirty key w s) := by
  unfold restoreDirty
  split
  next hv =>
    exact inv_writeSlot h ((h.slots key).withDirty fun hnv => nomatch hv.symm.trans hnv)
      fun _ _ _ _ hf => nomatch hi.symm.trans hf
  next => exact h

theorem inv_schedDone {P : Params} {s : State} (h : Inv P s) {key : SlotKey} {w : Bool} {gap pause t : Nat}
    (hf : s.infl = some (.cmd key w gap pause t)) (st : TxStatus) : Inv P (schedDone P key w gap pause st s) := by
  have htimers : Inv P (schedTimers key gap pause s) := inv_completionTimers h hf
  cases st with
  | ok => exact htimers
  | timingMiss => exact inv_emit (inv_restoreDirty htimers rfl key w) _
  | fault => exact inv_halt htimers rfl _

theorem inv_smPktDone {P : Params} (hP : P.InRange) {s : State} (h : Inv P s) {t : Nat}
    (hf : s.infl = some (.smpkt t)) (st : TxStatus) : Inv P (smPktDone P st s) := by
  have htimers : Inv P s.finish.countPacket := inv_completionTimers h hf
  obtain ⟨_, hst, _⟩ := h.flight_of_infl hf
  have hsession := h.session.afterPacket hP hst s.now
  cases st with
  | ok => exact inv_withSm htimers rfl hsession
  | timingMiss => exact inv_withSm (inv_emit htimers _) rfl hsession
  | fault => exact inv_halt htimers rfl _

theorem inv_smAckDone {P : Params} {s : State} (h : Inv P s) {t : Nat} (hf : s.infl = some (.ack t)) (ack : Bool)
    (st : TxStatus) : Inv P (smAckDone P ack st s) := by
  obtain ⟨_, hst, _⟩ := h.flight_of_infl hf
  have hmove : Inv P (s.finish.withSm (smAfterAck ack s.sm)) :=
    inv_withSm (inv_finish h) rfl (h.session.afterAck hst ack)
  cases st with
  | ok | timingMiss => exact hmove
  | fault => exact inv_halt (inv_finish h) rfl _

/-- A drawn vector is cut to the chain (10_state.md R42). -/
theorem s88Frame_toNat_lt (P : Params) (v : S88Vector) : (s88Frame P v).toNat < 2 ^ P.s88Bits := by
  rw [s88Frame, BitVec.toNat_ofNat]
  exact (Nat.mod_le _ _).trans_lt (Nat.mod_lt _ (Nat.two_pow_pos _))

theorem inv_s88Done {P : Params} {s : State} (h : Inv P s) (v : S88Vector) (st : TxStatus) :
    Inv P (s88Done P v st s) := by
  have htimers : Inv P s.finish.countPoll := inv_countPoll (inv_finish h)
  cases st with
  | ok =>
    have hframe := inv_emitAll (inv_withFrame htimers h.frameCur (s88Frame_toNat_lt P v))
      (s88Events P s.s88Cur (s88Frame P v))
    simp only [s88Done]
    split
    · exact hframe
    · exact inv_trig hframe _
  | timingMiss => exact inv_emit htimers _
  | fault => exact inv_halt htimers rfl _

theorem inv_complete {P : Params} (hP : P.InRange) {s : State} (h : Inv P s) {f : InFlight} (hf : s.infl = some f)
    (d : Draw) : Inv P (complete P d s) := by
  rw [complete, hf]
  cases f with
  | cmd key w gap pause t => exact inv_schedDone h hf d.status
  | smpkt t => exact inv_smPktDone hP h hf d.status
  | ack t => exact inv_smAckDone h hf d.ack d.status
  | s88 t => exact inv_s88Done h d.vector d.status

theorem inv_driverStep {P : Params} (hP : P.InRange) {s : State} (h : Inv P s) (d : Draw) :
    Inv P (driverStep P d s) := by
  obtain hs | ⟨f, hf, _, hs⟩ := driverStep_cases P d s
  · exact hs ▸ inv_passedOver h
  · exact hs ▸ inv_complete hP h hf d

/-! ### Every step, and every run -/

/-- Each agent's step keeps the invariant, under every configuration record within the ranges of 00_scope.md Table R9. -/
theorem inv_agentStep {P : Params} (hP : P.InRange) {s : State} (h : Inv P s) (a : AgentStep) :
    Inv P (agentStep P a s) := by
  cases a with
  | host w => exact inv_hostStep h w
  | pop => exact inv_popStep h
  | psb => exact inv_psbStep hP h
  | driver d => exact inv_driverStep hP h d
  | clock dt => exact inv_clockStep h dt
  | reset => exact inv_unread (inv_reset P)

theorem inv_takeOffer {P : Params} {s : State} (h : Inv P s) : Inv P (takeOffer s) := by
  obtain ⟨_, _, hs⟩ := takeOffer_eq s
  rw [hs]
  exact inv_unread h

/-- Settles O54: the offer is taken, then the agent acts. -/
theorem everyStepKeepsTheInvariant : Obligations.EveryStepKeepsTheInvariant := by
  intro s t h hstep
  obtain rfl := step_eq_next_iff.1 hstep
  exact inv_agentStep params_inRange (inv_takeOffer h) _

/-- Settles O55: no slot, no session and no transaction. -/
theorem resetMeetsTheInvariant : Obligations.ResetMeetsTheInvariant := inv_reset params

/-- The invariant holds along every run from reset, whatever the environment offers. -/
theorem inv_after_reset (offers : List AgentStep) (n : Nat) :
    Inv params (after n { State.reset with agenda := offers }) :=
  after_induction (fun s h => everyStepKeepsTheInvariant s _ h (step_eq_next_iff.2 (nextState_eq s)))
    (inv_unread (inv_reset params)) n

/-! ### What the invariant says of a state -/

theorem inRange_of_addrValid {k : SlotKey} (h : addrValid params k = true) :
    inRange params k.proto k.kind k.addr.toNat := by
  obtain ⟨p, kind, a⟩ := k
  cases p <;> cases kind
  case mfx.ga => exact Bool.false_ne_true h
  all_goals exact of_decide_eq_true (p := _ ∧ _) h

/-- A valid locomotive slot is within the limits of its protocol (10_state.md R22). -/
theorem Inv.gl_limits {P : Params} {s : State} (h : Inv P s) {k : SlotKey} {sp : BitVec 8} {dir : BitVec 1}
    {f : BitVec 32} (hv : (s.slot k).valid = true) (hpl : (s.slot k).payload = .gl sp dir f) :
    sp.toNat ≤ P.speedMax k.proto ∧ f.toNat >>> (P.funcMax k.proto + 1) = 0 := by
  obtain ⟨_, hlegal⟩ := (h.slots k).legal hv
  rw [hpl] at hlegal
  obtain ⟨_, hspeed, hfuncs⟩ := hlegal
  exact ⟨hspeed, of_decide_eq_true hfuncs⟩

/-- A session runs in SERVICE, or is left over in HALTED (10_state.md R41). -/
theorem Inv.session_mode {P : Params} {s : State} (h : Inv P s) (hrun : s.sm.state ≠ .idle) :
    s.sm.op ≠ .none ∧ (s.mode = .service ∨ s.mode = .halted) := by
  refine ⟨fun hop => hrun (h.session.idleIff.2 hop), ?_⟩
  cases hm : s.mode with
  | normal => exact absurd (h.session.normalIdle hm) hrun
  | service => exact .inl rfl
  | halted => exact .inr rfl

/-- The mode of each kind of transaction in flight (10_state.md R29). -/
def flightMode : InFlight → Mode → Prop
  | .cmd _ _ _ _ _, m => m = .normal
  | .smpkt _, m => m = .service
  | .ack _, m => m = .service
  | .s88 _, m => m ≠ .halted

theorem Inv.flight_mode {P : Params} {s : State} (h : Inv P s) {f : InFlight} (hf : s.infl = some f) :
    flightMode f s.mode := by
  have hflight := h.flight_of_infl hf
  cases f with
  | cmd | smpkt | ack | s88 => exact hflight.1

theorem Inv.ne_halted_of_infl {P : Params} {s : State} (h : Inv P s) (hf : s.infl ≠ none) : s.mode ≠ .halted := by
  obtain ⟨f, hf⟩ := Option.ne_none_iff_exists'.1 hf
  have hmode := h.flight_mode hf
  cases f with
  | cmd | smpkt | ack => exact fun hh => nomatch hmode.symm.trans hh
  | s88 => exact hmode

/-- The DRIVER has a job exactly while a transaction is in flight (60_exceptions.md R330, R331). -/
theorem Inv.infl_none_iff {P : Params} {s : State} (h : Inv P s) : s.infl = none ↔ s.driver = none := by
  refine ⟨fun hi => h.flight_of_infl hi, fun hd => ?_⟩
  cases hf : s.infl with
  | none => rfl
  | some f =>
    have hflight := h.flight_of_infl hf
    cases f with
    | cmd =>
      obtain ⟨_, _, _, _, _, _, hjob, _⟩ := hflight
      exact nomatch hd.symm.trans hjob
    | smpkt =>
      obtain ⟨_, _, _, _, _, hjob, _⟩ := hflight
      exact nomatch hd.symm.trans hjob
    | ack | s88 =>
      obtain ⟨_, _, _, hjob⟩ := hflight
      exact nomatch hd.symm.trans hjob

/-- The bits handed to the DRIVER (30_encoding.md R110). -/
theorem Inv.driver_bits {P : Params} {s : State} (h : Inv P s) {bits : List Bool} {hint : TimingHint}
    (hd : s.driver = some (.tx bits hint)) : legalLength P bits := by
  cases hf : s.infl with
  | none => exact nomatch hd.symm.trans (h.infl_none_iff.1 hf)
  | some f =>
    have hflight := h.flight_of_infl hf
    cases f with
    | cmd =>
      obtain ⟨_, _, _, _, _, _, hjob, hlen, _⟩ := hflight
      cases hd.symm.trans hjob
      exact hlen
    | smpkt =>
      obtain ⟨_, _, _, _, _, hjob, hlen, _⟩ := hflight
      cases hd.symm.trans hjob
      exact hlen
    | ack | s88 =>
      obtain ⟨_, _, _, hjob⟩ := hflight
      exact nomatch hd.symm.trans hjob

/-- Settles O56: the invariant holds along the run, and each clause is one of its readings. -/
theorem reachableStatesAreLegal : Obligations.ReachableStatesAreLegal := by
  rintro offers n s rfl
  have h := inv_after_reset offers n
  refine ⟨⟨_, step_eq _⟩, fun k => (h.slots k).blank, fun k hv => inRange_of_addrValid ((h.slots k).legal hv).1,
    fun k sp dir f => h.gl_limits, h.session_mode, h.session.idleIff.1, h.ne_halted_of_infl, fun t0 hf => ?_,
    fun k w g p t0 hf => h.flight_mode hf, h.queue, h.session.retryLegal, h.session.repLegal, h.infl_none_iff,
    fun bits hint => h.driver_bits⟩
  obtain hf | hf := hf
  · exact h.flight_mode hf
  · exact h.flight_mode hf

end Sys2Proof.Machine
